-- ==== Sys2Proof/Word.lean ====
section
/-! DEFINITION. The plain value types of the DF-84: bytes and the numbers that name its parts. -/

namespace Sys2Proof

/-- One byte of a frame, a sector or a record (11, "Numbers of more than one byte"). -/
abbrev Byte := BitVec 8

/-- A run of characters or bytes: a slug, a name, a token, the data of a WRITE. -/
abbrev Chars := List Byte

/-- A drive, 0 to 3 (00, "Desks, lines and drives"). -/
abbrev DriveId := Fin 4

/-- A desk line, 0 to 3 (00). -/
abbrev LineId := Fin 4

/-- A desk number, line × 8 + drop − 1, 0 to 31 (00). -/
abbrev DeskNo := Fin 32

/-- A handle; handle number n of the spec, 1 to 48, is index n − 1 (R46). -/
abbrev HandleIx := Fin 48

/-- A slot of the request queue, 0 to 23 (R110). -/
abbrev QSlot := Fin 24

/-- A catalogue slot, 0 to 115 (R4). -/
abbrev CatSlot := Fin 116

/-- A track buffer, 0 to 5 (R124). -/
abbrev BufId := Fin 6

/-- A record of the retired version table, sixteen of them (R74). -/
abbrev RecIx := Fin 16

/-- The byte of a number, its low eight bits. -/
abbrev byte (n : Nat) : Byte := BitVec.ofNat 8 n

end Sys2Proof
end

