-- ==== Sys2Proof/Config.lean ====
section
/-! DEFINITION. The capacities and durations that the DF-84 fixes. No value of the spec is left open to an
implementation as the result of a command, so there is no free value here (INVENTORY, "What the manual leaves open"). -/

namespace Sys2Proof.Config

/-- R6: the debounce of a ready line, in ms. -/
def debounceMs : Nat := 500
/-- R142: the head load, in ms. -/
def headLoadMs : Nat := 35
/-- R143: the settle, in ms. -/
def settleMs : Nat := 15
/-- R144: the steps after which a recalibration has failed. -/
def recalibrateLimit : Nat := 80
/-- R158: the index watch, in ms. -/
def indexWatchMs : Nat := 1000
/-- R172: the negation timer, in ms. -/
def negationMs : Nat := 1000
/-- R92: the minute interval, in s. -/
def minuteIntervalS : Nat := 60
/-- R145: entries of a drive's operation queue. -/
def opQueueSize : Nat := 16
/-- R115: the most operations of its own that a request keeps queued. -/
def ownOps : Nat := 8
/-- R106: Intake takes a frame while the line's transmit queue holds this many frames or fewer. -/
def intakeRoom : Nat := 10
/-- R120: a notice is admitted while the line's transmit queue holds this many frames or fewer. -/
def admissionRoom : Nat := 3
/-- R168: entries of a line's transmit queue. -/
def txQueueSize : Nat := 12
/-- R183: the most characters of a text frame that the part sends, before its carriage return. -/
def textFrameSize : Nat := 200
/-- R119: entries of a desk's notice list. -/
def noticeListSize : Nat := 4
/-- R166: the value at which an error count stops. -/
def countLimit : Nat := 65535
/-- R26: entries of the bad-block list. -/
def badListSize : Nat := 16
/-- R5, R58: extents of one extent list. -/
def maxExtents : Nat := 8
/-- R5: blocks of one extent. -/
def maxExtentLength : Nat := 64
/-- R5: bytes of a story. -/
def maxStory : Nat := 32768
/-- R5: bytes of a block. -/
def sectorBytes : Nat := 256
/-- R65: the greatest version. -/
def maxVersion : Nat := 9999
/-- R9: unreadable catalogue sectors that a mount bears. -/
def badCatalogueSectors : Nat := 8
/-- The rounds of the loop that carries out the effects the spec places at once after an event (log 9). -/
def settleRounds : Nat := 256

end Sys2Proof.Config
end

