-- ==== Sys2Proof/Syntax.lean ====
section
/-! DEFINITION. The commands of the DF-84: one constructor for each row of spec/opcode_table.json. -/

namespace Sys2Proof

/-- The two forms of a frame (R164). -/
inductive Form where
  | text | packed
  deriving DecidableEq, Repr

/-- Whose request a frame is: its desk, its tag and the form it came in (R106). -/
structure Envelope where
  desk : DeskNo
  tag : Nat
  form : Form
  deriving DecidableEq, Repr

/-- The basket filter of a LIST (R42). -/
inductive BasketFilter where
  | all
  | only (basket : Nat)
  deriving DecidableEq, Repr

/-- The six fields of a writing RULE by their packed numbers (R83; 11.3). -/
structure RuleFields where
  enabled : Nat
  low : Nat
  high : Nat
  compare : Nat
  classes : Nat
  grant : Nat
  deriving DecidableEq, Repr

/-- The six fields of a writing EDITION (R91; 11.3). -/
structure EditionFields where
  name : Chars
  enabled : Nat
  close : Nat
  reopen : Nat
  lead : Nat
  baskets : List Nat
  deriving DecidableEq, Repr

/-- The request kinds (R80). -/
inductive ReqKind where
  | list | openStory | read | write | file | discard | close | create | kill | breakIt | status | cancel
  | format | remount | set | query | rule | edition | clock | lineStatus | restart
  deriving DecidableEq, Repr

/-- A request as Intake reads it from a complete frame (R106; R182, R183). Numeric fields may be out of range, since
Intake refuses them by rule. SET's item, qualifier and value are the packed numbers of 11.3 in both forms. -/
inductive Request where
  | list (drive : Nat) (filter : BasketFilter) (start : Nat)
  | openRead (drive : Nat) (slug : Chars)
  | openEdit (drive : Nat) (slug : Chars)
  | create (drive : Nat) (slug : Chars) (basket : Nat)
  | read (handle : Nat) (count : Nat) (offset : Option Nat)
  | write (handle : Nat) (offset : Nat) (data : Chars)
  | file (handle : Nat)
  | discard (handle : Nat)
  | close (handle : Nat)
  | kill (drive : Nat) (slug : Chars)
  | breakCheckOut (drive : Nat) (slug : Chars)
  | status (drive : Nat)
  | cancel
  | format (drive : Nat) (name : Chars) (serial : Nat) (sides : Nat)
  | remount (drive : Nat)
  | set (item : Nat) (qualifier : Nat) (value : Nat)
  | setClass (line : Nat) (drop : Nat) (cls : Nat)
  | setLineEnable (line : Nat) (value : Nat)
  | setDriveEnable (drive : Nat) (value : Nat)
  | query (item : Nat) (qualifier : Nat)
  | ruleRead (index : Nat)
  | ruleWrite (index : Nat) (fields : RuleFields)
  | editionRead (index : Nat)
  | editionWrite (index : Nat) (fields : EditionFields)
  | clock (minute : Nat)
  | lineStatus (line : Nat)
  | restart
  /-- A frame of a known kind whose fields do not read as the kind's (R182, R183). -/
  | malformed (kind : ReqKind)
  /-- A frame whose kind is no request kind (R106 step 2). -/
  | unknown (code : Nat)
  deriving DecidableEq, Repr

/-- A complete, valid request frame as the desk line hands it to Intake (R106). -/
structure Frame where
  env : Envelope
  req : Request
  deriving DecidableEq, Repr

/-- One received character: its value, its address mark, and the checks it failed (R163). -/
structure LineChar where
  value : Byte
  mark : Bool
  parityError : Bool
  framingError : Bool
  deriving DecidableEq, Repr

/-- What reading one sector gave (R152): its 256 bytes with both CRCs correct, a wrong CRC, or no header. -/
inductive SectorRead where
  | good (content : Chars)
  | crcError
  | notFound
  deriving DecidableEq, Repr

/-- What writing one sector gave (R153): its header passed and the read-back that follows, or no header. -/
inductive SectorWrite where
  | written (readBack : SectorRead)
  | notFound
  deriving DecidableEq, Repr

/-- The write-fault line asserted by a drive (R157): the drive, and whether its transfer has written its last target sector and
reads back, which the headers that pass under the head decide (R153 to R155; log 32). -/
structure WriteFault where
  drive : DriveId
  verifying : Bool
  deriving DecidableEq, Repr

/-- The levels of the part's input lines at power-on (R6, R15, R172), by drive and by line. -/
structure Pins where
  ready : Vector Bool 4
  protect : Vector Bool 4
  deskReady : Vector Bool 4
  deriving DecidableEq, Repr

/-- The commands. A request row is Intake being handed that frame from that desk (log 3). -/
inductive Instr where
  | powerOn (pins : Pins)
  | list (env : Envelope) (drive : Nat) (filter : BasketFilter) (start : Nat)
  | listNextFrame (desk : DeskNo)
  | openRead (env : Envelope) (drive : Nat) (slug : Chars)
  | openEdit (env : Envelope) (drive : Nat) (slug : Chars)
  | create (env : Envelope) (drive : Nat) (slug : Chars) (basket : Nat)
  | read (env : Envelope) (handle : Nat) (count : Nat) (offset : Option Nat)
  | write (env : Envelope) (handle : Nat) (offset : Nat) (data : Chars)
  | file (env : Envelope) (handle : Nat)
  | discard (env : Envelope) (handle : Nat)
  | close (env : Envelope) (handle : Nat)
  | kill (env : Envelope) (drive : Nat) (slug : Chars)
  | breakCheckOut (env : Envelope) (drive : Nat) (slug : Chars)
  | status (env : Envelope) (drive : Nat)
  | cancel (env : Envelope)
  | format (env : Envelope) (drive : Nat) (name : Chars) (serial : Nat) (sides : Nat)
  | remount (env : Envelope) (drive : Nat)
  | set (env : Envelope) (item : Nat) (qualifier : Nat) (value : Nat)
  | setClass (env : Envelope) (line : Nat) (drop : Nat) (cls : Nat)
  | setLineEnable (env : Envelope) (line : Nat) (value : Nat)
  | setDriveEnable (env : Envelope) (drive : Nat) (value : Nat)
  | query (env : Envelope) (item : Nat) (qualifier : Nat)
  | ruleRead (env : Envelope) (index : Nat)
  | ruleWrite (env : Envelope) (index : Nat) (fields : RuleFields)
  | editionRead (env : Envelope) (index : Nat)
  | editionWrite (env : Envelope) (index : Nat) (fields : EditionFields)
  | clock (env : Envelope) (minute : Nat)
  | lineStatus (env : Envelope) (line : Nat)
  | restart (env : Envelope)
  | restartClearing
  | unknownKindFrame (env : Envelope) (code : Nat)
  | noticeAdmission (line : LineId)
  | dispatch (drive : DriveId)
  | labelStep (drive : DriveId)
  | catalogueStep (drive : DriveId)
  | formatRecords (drive : DriveId)
  | readyLineChange (drive : DriveId) (level : Bool) (protect : Bool)
  | debounceExpiry (drive : DriveId)
  | indexPulse (drive : DriveId) (protect : Bool)
  | indexWatchExpiry (drive : DriveId)
  | headLoadEnd (drive : DriveId)
  | stepIntervalExpiry (drive : DriveId)
  | settleEnd (drive : DriveId)
  | recalibrateStep (drive : DriveId) (track0 : Bool)
  | writeFaultLine (fault : WriteFault)
  | readTrackAttemptEnd (drive : DriveId) (wrongTrack : Bool) (sectors : List SectorRead)
  | writeSectorsAttemptEnd (drive : DriveId) (wrongTrack : Bool) (sectors : List SectorWrite)
  | catalogueWriteAttemptEnd (drive : DriveId) (wrongTrack : Bool) (result : SectorWrite)
  | labelWriteAttemptEnd (drive : DriveId) (wrongTrack : Bool) (result : SectorWrite)
  | formatTrackAttemptEnd (drive : DriveId) (wrongTrack : Bool) (sectors : List SectorRead)
  | waitListService
  | relocation (buffer : BufId)
  | headUnloadExpiry (drive : DriveId)
  | minuteExpiry
  | characterReceived (line : LineId) (char : LineChar)
  | gapTimeout (line : LineId)
  | quietTimeout (line : LineId)
  | heldFrameTaken (line : LineId)
  | frameSent (line : LineId)
  | pollBegin (line : LineId)
  | pollSent (line : LineId)
  | upstreamCharacter (line : LineId) (char : LineChar)
  | answerWindowExpiry (line : LineId)
  | pollPauseEnd (line : LineId)
  | deskReadyChange (line : LineId) (level : Bool)
  | negationTimerExpiry (line : LineId)
  deriving DecidableEq, Repr

end Sys2Proof
end

