-- ==== Sys2Proof/WellFormed.lean ====
section
/-! DEFINITION. Which commands are well formed: the operands that a desk line or a drive can really give. A field that
Intake refuses by rule is not ill formed. -/

namespace Sys2Proof

/-- R182, R183: a tag is 0 to 255 in packed form and 0 to 99 in text form. -/
def Envelope.wf (e : Envelope) : Bool :=
  match e.form with
  | .text => e.tag < 100
  | .packed => e.tag < 256

/-- R1: a sector that was read gives 256 bytes. -/
def SectorRead.wf : SectorRead → Bool
  | .good content => content.length == Config.sectorBytes
  | .crcError => true
  | .notFound => true

/-- The read-back of a write gives 256 bytes when it gives any (R153). -/
def SectorWrite.wf : SectorWrite → Bool
  | .written readBack => readBack.wf
  | .notFound => true

/-- R1: a track-side has fifteen sectors. -/
def sectorsWf (rs : List SectorRead) : Bool := rs.length == 15 && rs.all SectorRead.wf

/-- R1: a track-side has fifteen sectors. -/
def writesWf (rs : List SectorWrite) : Bool := rs.length == 15 && rs.all SectorWrite.wf

/-- R163: no character of an 8N or 7E line has an address mark. -/
def LineChar.wfPoint (c : LineChar) : Bool := !c.mark

/-- R163: no character of a 9M line has a parity bit, so none fails its check. -/
def LineChar.wfDrop (c : LineChar) : Bool := !c.parityError

/-- R106: an unknown kind is not the code of a request kind (R182). -/
def unknownCodeWf (code : Nat) : Bool := code < 256 && !(0x10 ≤ code && code ≤ 0x24)

/-- The well-formedness check, one line per constructor. -/
def Instr.wf : Instr → Bool
  | .powerOn _ => true
  | .list e _ _ _ => e.wf
  | .listNextFrame _ => true
  | .openRead e _ _ => e.wf
  | .openEdit e _ _ => e.wf
  | .create e _ _ _ => e.wf
  | .read e _ _ _ => e.wf
  | .write e _ _ _ => e.wf
  | .file e _ => e.wf
  | .discard e _ => e.wf
  | .close e _ => e.wf
  | .kill e _ _ => e.wf
  | .breakCheckOut e _ _ => e.wf
  | .status e _ => e.wf
  | .cancel e => e.wf
  | .format e _ _ _ _ => e.wf
  | .remount e _ => e.wf
  | .set e _ _ _ => e.wf
  | .setClass e _ _ _ => e.wf
  | .setLineEnable e _ _ => e.wf
  | .setDriveEnable e _ _ => e.wf
  | .query e _ _ => e.wf
  | .ruleRead e _ => e.wf
  | .ruleWrite e _ _ => e.wf
  | .editionRead e _ => e.wf
  | .editionWrite e _ _ => e.wf
  | .clock e _ => e.wf
  | .lineStatus e _ => e.wf
  | .restart e => e.wf
  | .restartClearing => true
  | .unknownKindFrame e code => e.wf && unknownCodeWf code
  | .noticeAdmission _ => true
  | .dispatch _ => true
  | .labelStep _ => true
  | .catalogueStep _ => true
  | .formatRecords _ => true
  | .readyLineChange _ _ _ => true
  | .debounceExpiry _ => true
  | .indexPulse _ _ => true
  | .indexWatchExpiry _ => true
  | .headLoadEnd _ => true
  | .stepIntervalExpiry _ => true
  | .settleEnd _ => true
  | .recalibrateStep _ _ => true
  | .writeFaultLine _ => true
  | .readTrackAttemptEnd _ _ rs => sectorsWf rs
  | .writeSectorsAttemptEnd _ _ rs => writesWf rs
  | .catalogueWriteAttemptEnd _ _ r => r.wf
  | .labelWriteAttemptEnd _ _ r => r.wf
  | .formatTrackAttemptEnd _ _ rs => sectorsWf rs
  | .waitListService => true
  | .relocation _ => true
  | .headUnloadExpiry _ => true
  | .minuteExpiry => true
  | .characterReceived _ c => c.wfPoint
  | .gapTimeout _ => true
  | .quietTimeout _ => true
  | .heldFrameTaken _ => true
  | .frameSent _ => true
  | .pollBegin _ => true
  | .pollSent _ => true
  | .upstreamCharacter _ c => c.wfDrop
  | .answerWindowExpiry _ => true
  | .pollPauseEnd _ => true
  | .deskReadyChange _ _ => true
  | .negationTimerExpiry _ => true

end Sys2Proof
end

