-- ==== Sys2Proof/Machine/State.lean ====
section
/-! DEFINITION. The state of the DF-84 as plain data, its reasons to stop, and the state after power-on. -/

namespace Sys2Proof.Machine

open Sys2Proof

/-- The part never stops with a fault: every refusal of the spec is a reply and every failure a state it goes on in
(INVENTORY, "Faults"). Nothing raises a fault, which is safe. -/
inductive Fault where
  deriving DecidableEq, Repr

/-- Why a command has no meaning. -/
inductive Refusal where
  /-- Raised by exec for a command that has no meaning yet; safe, since the model stops. -/
  | notModelled (mnemonic : String)
  deriving DecidableEq, Repr

/-! ### Names -/

/-- R79: the classes. -/
inductive Cls where
  | reporter | copy | slot | supervisor
  deriving DecidableEq, Repr

/-- R82: the grants. -/
inductive Grant where
  | none | read | readWrite | deposit
  deriving DecidableEq, Repr

/-- R82: a subset of the classes. -/
structure ClassSet where
  reporter : Bool
  copy : Bool
  slot : Bool
  supervisor : Bool
  deriving DecidableEq, Repr

/-- R82: an entry of the access rule table. -/
structure AccessRule where
  enabled : Bool
  low : Nat
  high : Nat
  compare : Bool
  classes : ClassSet
  grant : Grant
  deriving DecidableEq, Repr

/-- R90: the states of an edition. -/
inductive EditionState where
  | disabled | scheduled | warning | closed
  deriving DecidableEq, Repr

/-- R90: an entry of the edition table. -/
structure Edition where
  name : Chars
  enabled : Bool
  close : Nat
  reopen : Nat
  lead : Nat
  baskets : List Nat
  pendingBaskets : Option (List Nat)
  state : EditionState
  deriving DecidableEq, Repr

/-- R92: the minute clock. -/
inductive Clock where
  | unset
  | running (minute : Nat)
  deriving DecidableEq, Repr

/-- Section 1.2: the volume states. -/
inductive VolState where
  | absent | mounting | mounted | writeProtected | writeFaulted | foreign | unreadable | formatting
  deriving DecidableEq, Repr

/-- R141: the mechanical states, in the order of its table. -/
inductive Mech where
  | notReady | unloaded | loading | idle | stepping | settling | waitChannel | transferring | recalibrating | faulted
  deriving DecidableEq, Repr

/-- R163: the character formats. -/
inductive LineFormat where
  | f8N | f7E | f9M
  deriving DecidableEq, Repr

/-- R163: the rate generators. -/
inductive Generator where
  | p | q
  deriving DecidableEq, Repr

/-- R164: the judgements. -/
inductive Judgement where
  | disabled | unjudged | text | packed
  deriving DecidableEq, Repr

/-- R162: the presence of a desk. -/
inductive Presence where
  | unknown | present | absent
  deriving DecidableEq, Repr

/-- R181: the last-restart cause. -/
inductive RestartCause where
  | powerOn | restart
  deriving DecidableEq, Repr

/-- The result codes, in the order of their numbers (11.3). -/
inductive ResultCode where
  | ok | busy | queueFull | badRequest | notPermitted | denied | noDrive | notMounted | volumeGone | writeProtected
  | writeFaulted | noStory | exists_ | damaged | locked | noHandle | badHandle | wrongMode | offset | tooLong
  | fragmented | volumeFull | catalogueFull | closed | frozen | broken | lost | superseded | inProgress | inUse
  | versionLimit | mediaError | cancelled
  deriving DecidableEq, Repr

/-! ### Stories, volumes and handles -/

/-- R5: a run of consecutive blocks. -/
structure Extent where
  start : Nat
  length : Nat
  deriving DecidableEq, Repr

/-- R29: the fields of a filed story. -/
structure Story where
  slug : Chars
  basket : Nat
  version : Nat
  length : Nat
  filedBy : DeskNo
  minute : Option Nat
  extents : List Extent
  deriving DecidableEq, Repr

/-- R28, R29: a catalogue slot. The kill-pending mark of a FILED slot names the killing desk (R40). -/
inductive Slot where
  | empty
  | reserved (slug : Chars) (basket : Nat)
  | filed (story : Story) (killPending : Option DeskNo)
  | damaged (slug : Option Chars) (stored : Option Chars)
  deriving DecidableEq, Repr

/-- R3, R8: the copy of a label. -/
structure Label where
  name : Chars
  serial : Nat
  sides : Nat
  badBlocks : List Nat
  deriving DecidableEq, Repr

/-- R24: the state of a data block. -/
inductive BlockState where
  | free | staged | filed | retired | bad
  deriving DecidableEq, Repr

/-- What the part holds of a mounted volume (section 1.2): label copy, pending label additions and bad-list-full flag
(R26), free-space map with its cursor (R24, R25) and catalogue (R28). `cells` lists the blocks that are not FREE, in
rising order. `lastAlloc` is the block of the volume's latest allocation and the cursor before it (R25). -/
structure Media where
  label : Label
  additions : List Nat
  badListFull : Bool
  cells : List (Nat × BlockState)
  cursor : Nat
  lastAlloc : Option (Nat × Nat)
  catalogue : Vector Slot 116
  deriving DecidableEq, Repr

/-- R47: the mode of a handle. -/
inductive Mode where
  | read | edit
  deriving DecidableEq, Repr

/-- R73: why a handle is DEFUNCT. -/
inductive Cause where
  | broken | lost | superseded
  deriving DecidableEq, Repr

/-- R47: the state of a handle. -/
inductive HandleState where
  | live | frozen
  | defunct (cause : Cause)
  deriving DecidableEq, Repr

/-- R47: where a pinned version is found. -/
inductive PinSource where
  | catalogue
  | record (r : RecIx)
  | empty
  deriving DecidableEq, Repr

/-- R47: the pin of a READ handle. -/
structure Pin where
  version : Nat
  source : PinSource
  deriving DecidableEq, Repr

/-- R47: the staging part of an EDIT handle. -/
structure Staging where
  length : Nat
  extents : List Extent
  newStory : Bool
  deriving DecidableEq, Repr

/-- R47: a handle entry; its number is its place in the table. -/
structure Handle where
  desk : DeskNo
  drive : DriveId
  slot : CatSlot
  mode : Mode
  state : HandleState
  pin : Option Pin
  base : Option Nat
  readPos : Nat
  staging : Option Staging
  deriving DecidableEq, Repr

/-- R74: a record of the retired version table. -/
structure Retired where
  drive : DriveId
  length : Nat
  extents : List Extent
  pins : Nat
  deriving DecidableEq, Repr

/-! ### The request queue -/

/-- R110: the kind and parameters of a queued request. -/
inductive Job where
  | read (handle : HandleIx) (offset : Option Nat) (count : Nat)
  | write (handle : HandleIx) (offset : Nat) (data : Chars)
  | file (handle : HandleIx)
  | kill (slug : Chars)
  | format (name : Chars) (serial : Nat) (sides : Nat)
  | remount
  deriving DecidableEq, Repr

/-- R113: the lanes. -/
inductive Lane where
  | urgent | ordinary
  deriving DecidableEq, Repr

/-- A run of bytes inside one block (R54). -/
structure Piece where
  block : Nat
  start : Nat
  len : Nat
  deriving DecidableEq, Repr

/-- Where an ACTIVE request stands (R115, with the steps of R62 to R64, R128 to R131). -/
inductive Place where
  /-- It can go on at once. -/
  | run
  /-- It holds the buffer and goes on when the buffer allows (R130, R131). -/
  | holding (b : BufId)
  /-- Its READ_TRACK into the buffer is queued (R129). -/
  | filling (b : BufId)
  /-- An eviction flush runs for it (R134). -/
  | evicting
  /-- Its eviction flush left sectors of the buffer to relocate, and it waits until they are placed (R134, R136). -/
  | draining (b : BufId)
  /-- Its eviction flush has ended, and it obtains a buffer before the wait list is taken (R134). -/
  | evicted
  /-- It is on the pool's wait list (R128). -/
  | waiting
  | barrier | barrierDone | label | labelDone | catalogue
  | formatting | mounting
  deriving DecidableEq, Repr

/-- R20, R21: how far a FORMAT has come. `records` counts its catalogue and label writes queued and ended, once they
have begun. -/
structure FormatProgress where
  queued : Nat
  ended : Nat
  bad : List Nat
  records : Option (Nat × Nat)
  deriving DecidableEq, Repr

/-- What an ACTIVE request has done: a READ's remaining pieces and reply assembly area (R130), a WRITE's placed tail and
new block (R58, R60), a FORMAT's progress. -/
inductive Progress where
  | plain
  | read (offset : Nat) (todo : List Piece) (area : Chars)
  | write (tailPlaced : Bool) (newBlock : Option Nat)
  | format (p : FormatProgress)
  deriving DecidableEq, Repr

/-- The fields of an ACTIVE entry (R110, R114). -/
structure Active where
  lane : Lane
  cancelNoted : Bool
  place : Place
  progress : Progress
  deriving DecidableEq, Repr

/-- R110: an entry of the request queue; `active` absent is WAITING. -/
structure Entry where
  desk : DeskNo
  tag : Nat
  job : Job
  drive : DriveId
  arrival : Nat
  throughMount : Bool
  active : Option Active
  deriving DecidableEq, Repr

/-! ### Drives, buffers and the channel -/

/-- R145: the kinds of operation. -/
inductive OpKind where
  | recalibrate | readTrack | writeSectors | catalogueWrite | labelWrite | formatTrack
  deriving DecidableEq, Repr

/-- R145: the image selector of a CATALOGUE_WRITE: the sector with the slot of the pending entry, or a sector of
EMPTY entries written by FORMAT. -/
inductive ImageSel where
  | none
  | entry (sector : Nat) (slot : CatSlot)
  | empty (sector : Nat)
  deriving DecidableEq, Repr

/-- R145: the origin of an operation. Housekeeping is told apart by its purpose (R160, R161); `nobody` is an origin that
was removed while the operation transferred (R117). -/
inductive Origin where
  | request (slot : QSlot)
  | mount (drive : DriveId)
  | idleFlush
  | labelWrite
  | relocation (buffer : BufId)
  | nobody
  deriving DecidableEq, Repr

/-- R145: an operation. -/
structure Op where
  kind : OpKind
  track : Nat
  side : Nat
  buffer : Option BufId
  image : ImageSel
  origin : Origin
  transferring : Bool
  deriving DecidableEq, Repr

/-- R152 to R157: the failure kinds. -/
inductive FailureKind where
  | crcError | sectorNotFound | verifyMismatch | wrongTrack | writeProtected | writeFault | track0NotFound | indexLoss
  | driveFault
  deriving DecidableEq, Repr

/-- R154: the class of a read-back. -/
inductive ReadClass where
  | newImage | oldImage | neither | unreadable
  deriving DecidableEq, Repr

/-- R140: the attempt record of the operation in progress, with what its grant took (R151), the last failure kind of each
sector still bad (R161) and the index pulses that passed in the attempt (R153, R155). -/
structure Attempt where
  made : Nat
  retries : Nat
  final : Bool
  bad : List (Fin 15)
  kinds : List (Fin 15 × FailureKind)
  done : List (Fin 15 × Chars)
  taken : List (Fin 15 × Chars)
  verify : Bool
  image : Chars
  oldImage : Option Chars
  entry : Option Story
  included : List Nat
  lastClass : Option ReadClass
  pulses : Nat
  deriving DecidableEq, Repr

/-- Where a mount stands (R7): it wants its buffer, an eviction flush runs for it, drains by relocations or has ended, it is
on the wait list, or it reads track 0 or track 1. -/
inductive MountPlace where
  | wanting | evicting
  | draining (b : BufId)
  | evicted | waiting | track0 | track1
  deriving DecidableEq, Repr

/-- R7, R8: a mount in progress. `track0` holds catalogue sectors 0 to 13 as read, absent where unreadable. -/
structure Mount where
  place : MountPlace
  buffer : Option BufId
  label : Option Label
  track0 : List (Option Chars)
  deriving DecidableEq, Repr

/-- One drive: its lines and debounce (R6), its volume (section 1.2), its sequencer (R140) with the control lines that it
holds (the select and head-load lines of R142, the direction and side lines of R143; a step pulse is momentary) and the
scheduler's two fields (R112). `idleRelocs` names the buffers whose relocations the idle flush under way left (R160; log 50). -/
structure Drive where
  enabled : Bool
  readyLine : Bool
  protectLine : Bool
  takenLevel : Bool
  debounce : Option Nat
  vol : VolState
  media : Option Media
  mount : Option Mount
  mech : Mech
  head : Option Nat
  selected : Bool
  headLoad : Bool
  inward : Bool
  sideLine : Nat
  runOn : Bool
  recalSteps : Nat
  moveTimer : Option Nat
  ops : List Op
  appendWait : List Op
  attempt : Attempt
  unloadTimer : Option Nat
  unloadPending : Bool
  idleRelocs : List BufId
  indexWatch : Option Nat
  lastLane : Lane
  pointer : DeskNo
  deriving DecidableEq, Repr

/-- R124: the states of a buffer. -/
inductive BufState where
  | free | filling | ready | flushing
  deriving DecidableEq, Repr

/-- R125: a sector of a buffer with its content. -/
inductive Cell where
  | absent
  | valid (content : Chars)
  | dirty (content : Chars)
  deriving DecidableEq, Repr

/-- R124: a sector's state and its rewritten-since-grant mark. -/
structure Sector where
  cell : Cell
  mark : Bool
  deriving DecidableEq, Repr

/-- A track-side of a drive (R124). -/
structure TrackKey where
  drive : DriveId
  track : Nat
  side : Nat
  deriving DecidableEq, Repr

/-- R124, R127: who holds a buffer. -/
inductive Holder where
  | request (slot : QSlot)
  | mount (drive : DriveId)
  deriving DecidableEq, Repr

/-- R128: a party that needs a buffer. -/
inductive Party where
  | request (slot : QSlot)
  | mount (drive : DriveId)
  | relocation (buffer : BufId)
  deriving DecidableEq, Repr

/-- R136 step 3: where a relocation that has no buffer yet stands. -/
inductive RelocPlace where
  | wanting | evicting
  | draining (b : BufId)
  | evicted | waiting
  deriving DecidableEq, Repr

/-- R136: the relocation under way for the first sector of a buffer's relocations pending list: its check-out and the
pending replacement. -/
structure Reloc where
  handle : HandleIx
  replacement : Nat
  place : RelocPlace
  deriving DecidableEq, Repr

/-- R124: a track buffer. -/
structure Buffer where
  state : BufState
  key : Option TrackKey
  sectors : Vector Sector 15
  heldBy : Option Holder
  pending : List (Fin 15)
  reloc : Option Reloc
  deriving DecidableEq, Repr

/-! ### Replies and notices -/

/-- R43: an entry of a LIST frame. -/
inductive ListEntry where
  | filed (slot : CatSlot) (story : Story) (holder : Option DeskNo)
  | reserved (slot : CatSlot) (slug : Chars) (basket : Nat) (holder : Option DeskNo)
  | damaged (slot : CatSlot) (slug : Option Chars)
  deriving DecidableEq, Repr

/-- R24, R179: the block counts of a volume. -/
structure BlockCounts where
  free : Nat
  staged : Nat
  filed : Nat
  retired : Nat
  bad : Nat
  deriving DecidableEq, Repr

/-- R179: the fields of a STATUS reply; the absent ones have no value in the volume's state. -/
structure StatusReport where
  vol : VolState
  label : Option (Chars × Nat × Nat)
  counts : Option BlockCounts
  slotsUsed : Option Nat
  checkOuts : Nat
  badListFull : Bool
  mech : Mech
  clock : Clock
  cause : RestartCause
  deriving DecidableEq, Repr

/-- R162: the seven error counts. -/
structure Counts where
  parity : Nat
  framing : Nat
  gap : Nat
  check : Nat
  length : Nat
  stray : Nat
  wrongForm : Nat
  deriving DecidableEq, Repr

/-- R175: what LINE_STATUS tells of one kind of line or the other. -/
inductive LineSide where
  | multidrop (cycle : Nat) (drops : List (Nat × Presence × Nat))
  | pointToPoint (deskReady : Bool) (presence : Presence)
  deriving DecidableEq, Repr

/-- R175: the fields of a LINE_STATUS reply. -/
structure LineReport where
  enabled : Bool
  format : LineFormat
  generator : Generator
  baud : Nat
  judgement : Judgement
  frames : Nat
  notices : Nat
  side : LineSide
  counts : Counts
  deriving DecidableEq, Repr

/-- The result fields of a reply (11.3). -/
inductive ReplyBody where
  | none
  | locked (holder : DeskNo)
  | list (final : Bool) (entries : List ListEntry)
  | opened (handle : HandleIx) (slot : CatSlot) (basket version length : Nat)
  | read (offset : Nat) (data : Chars)
  | written (stagedLength : Nat)
  | filed (version previous length : Nat)
  | created (handle : HandleIx) (slot : CatSlot)
  | killed (slug : Chars) (version : Nat)
  | broken (holder : DeskNo)
  | status (report : StatusReport)
  | formatted (bad : Nat)
  | remounted (vol : VolState)
  | setting (item value : Nat)
  | rule (entry : AccessRule)
  | edition (entry : Edition)
  | clock (minute : Nat) (previous : Clock)
  | lineStatus (report : LineReport)
  deriving DecidableEq, Repr

/-- R184: a reply. An absent kind is the reply to a frame of no request kind (R182, R183). -/
structure Reply where
  kind : Option ReqKind
  tag : Nat
  code : ResultCode
  body : ReplyBody
  deriving DecidableEq, Repr

/-- R77, R101 to R103, R180: the notices with their fields (11.3). -/
inductive Notice where
  | refiled (handle : HandleIx) (version : Nat) (withdrawn : Bool)
  | killed (handle : HandleIx) (withdrawn : Bool)
  | broken (handle : HandleIx) (by_ : DeskNo)
  | lost (drive : DriveId) (handles : List HandleIx)
  | warning (name : Chars) (minutes : Nat) (handle : HandleIx)
  | closed (name : Chars) (handle : HandleIx)
  | reopened (handle : HandleIx)
  | restarted
  deriving DecidableEq, Repr

/-- What a frame of a transmit queue says; a notice carries the desk's notices-dropped flag (R120). -/
inductive TxContent where
  | reply (r : Reply)
  | notice (dropped : Bool) (n : Notice)
  deriving DecidableEq, Repr

/-- R168: a frame of a transmit queue. -/
structure TxFrame where
  desk : DeskNo
  content : TxContent
  deriving DecidableEq, Repr

/-- A character the part sends: its value and its address mark (R168, R182). -/
structure OutChar where
  value : Byte
  mark : Bool
  deriving DecidableEq, Repr

/-! ### Desks and lines -/

/-- R107: the end-pending mark of a LIST stream. -/
inductive EndMark where
  | none | cancelled | volumeGone
  deriving DecidableEq, Repr

/-- R42, R107: a LIST stream. -/
structure Stream where
  drive : DriveId
  filter : BasketFilter
  pos : Nat
  mark : EndMark
  deriving DecidableEq, Repr

/-- R107: an outstanding request. -/
structure Outstanding where
  tag : Nat
  kind : Option ReqKind
  stream : Option Stream
  deriving DecidableEq, Repr

/-- A desk record (R107, R119, R162). -/
structure Desk where
  presence : Presence
  missCount : Nat
  outstanding : Option Outstanding
  notices : List Notice
  noticesDropped : Bool
  deriving DecidableEq, Repr

/-- R165: the receive conditions. -/
inductive Rx where
  | hunting | assembling | held | quiet
  deriving DecidableEq, Repr

/-- R169: the states of a poll sequencer. -/
inductive PollState where
  | ready | polling | window | answer | pause
  deriving DecidableEq, Repr

/-- R169: a poll sequencer; `timer` is the answer-window timer in WINDOW and the poll pause in PAUSE. -/
structure Poll where
  state : PollState
  position : Nat
  cycle : Nat
  timer : Option Nat
  deriving DecidableEq, Repr

/-- R162: a desk line, with the drop last admitted that Intake keeps for it (R120). `txWait` holds the replies that wait
for room in a full transmit queue (log 11), `sending` the characters of the frame at its head, and `pollOut` those of the
poll being sent (R169; log 51). -/
structure Line where
  enabled : Bool
  format : LineFormat
  generator : Generator
  drops : List Nat
  answerWindow : Nat
  judgement : Judgement
  rx : Rx
  rxChars : Chars
  rxPacked : Bool
  rxFrame : Option Frame
  rxDropped : Bool
  tx : List TxFrame
  txWait : List TxFrame
  sending : List OutChar
  pollOut : List OutChar
  poll : Poll
  deskReady : Bool
  negation : Option Nat
  counts : Counts
  dropLastAdmitted : Nat
  deriving DecidableEq, Repr

/-! ### The whole -/

/-- The configuration that RESTART keeps (R176, R79, R82, R90, R92); the settings of one line or one drive stand with
the line or the drive. -/
structure Cfg where
  rateP : Nat
  rateQ : Nat
  pollPause : Nat
  missThreshold : Nat
  stepRate : Nat
  headUnload : Nat
  retryLimit : Nat
  writeVerify : Bool
  classes : Vector Cls 32
  rules : Vector AccessRule 16
  editions : Vector Edition 6
  clock : Clock
  minuteInterval : Option Nat
  deriving DecidableEq, Repr

/-- Everything else. `poolDue` tells that the pool has yet to take its wait list for an event of R128 (log 40). -/
structure Work where
  restarting : Bool
  lastRestart : RestartCause
  nextArrival : Nat
  desks : Vector Desk 32
  lines : Vector Line 4
  handles : Vector (Option Handle) 48
  retired : Vector (Option Retired) 16
  queue : Vector (Option Entry) 24
  drives : Vector Drive 4
  buffers : Vector Buffer 6
  lru : List BufId
  waitList : List Party
  poolDue : Bool
  owner : Option DriveId
  lastGranted : DriveId
  deriving DecidableEq, Repr

end Sys2Proof.Machine

namespace Sys2Proof.Machine

/-- The state of the block: the commands that wait, the configuration and the work. -/
structure State where
  pending : List Sys2Proof.Instr
  cfg : Cfg
  work : Work
  deriving DecidableEq, Repr

/-! ### Power-on -/

/-- R82: a disabled entry. -/
def AccessRule.powerOn : AccessRule where
  enabled := false
  low := 0
  high := 0
  compare := false
  classes := ⟨false, false, false, false⟩
  grant := .none

/-- R90: entry n is named E followed by the digit n. -/
def Edition.powerOn (n : Fin 6) : Edition where
  name := [0x45, byte (0x30 + n.val)]
  enabled := false
  close := 0
  reopen := 60
  lead := 0
  baskets := [0]
  pendingBaskets := none
  state := .disabled

/-- R176, R79, R82, R90, R92. -/
def Cfg.powerOn : Cfg where
  rateP := 9600
  rateQ := 1200
  pollPause := 20
  missThreshold := 3
  stepRate := 6
  headUnload := 10
  retryLimit := 3
  writeVerify := true
  classes := (Vector.replicate 32 Cls.reporter).set 0 .supervisor
  rules := Vector.replicate 16 AccessRule.powerOn
  editions := Vector.ofFn Edition.powerOn
  clock := .unset
  minuteInterval := none

/-- R162, R107, R119. -/
def Desk.powerOn : Desk where
  presence := .unknown
  missCount := 0
  outstanding := none
  notices := []
  noticesDropped := false

/-- R162. -/
def Counts.zero : Counts := ⟨0, 0, 0, 0, 0, 0, 0⟩

/-- R162, R176: line 0 is an enabled 9M line with drop 1, as R174 starts it; lines 1 to 3 stand as R173 leaves them. -/
def Line.powerOn (deskReady : Bool) (l : LineId) : Line where
  enabled := l == 0
  format := .f9M
  generator := .p
  drops := [1]
  answerWindow := 50
  judgement := if l == 0 then .unjudged else .disabled
  rx := .hunting
  rxChars := []
  rxPacked := false
  rxFrame := none
  rxDropped := false
  tx := []
  txWait := []
  sending := []
  pollOut := []
  poll := ⟨.ready, 1, 0, none⟩
  deskReady := deskReady
  negation := none
  counts := Counts.zero
  dropLastAdmitted := 8

/-- The attempt record of a drive with no operation in progress (log 7). -/
def Attempt.none : Attempt where
  made := 0
  retries := 0
  final := false
  bad := []
  kinds := []
  done := []
  taken := []
  verify := false
  image := []
  oldImage := Option.none
  entry := Option.none
  included := []
  lastClass := Option.none
  pulses := 0

/-- R6, R112, R140: a drive at power-on; its debounce runs where its ready line is high. Its control lines are at rest
(log 7). -/
def Drive.powerOn (ready protect : Bool) : Drive where
  enabled := true
  readyLine := ready
  protectLine := protect
  takenLevel := false
  debounce := if ready then some Config.debounceMs else none
  vol := .absent
  media := none
  mount := none
  mech := .notReady
  head := none
  selected := false
  headLoad := false
  inward := false
  sideLine := 0
  runOn := false
  recalSteps := 0
  moveTimer := none
  ops := []
  appendWait := []
  attempt := Attempt.none
  unloadTimer := none
  unloadPending := false
  idleRelocs := []
  indexWatch := none
  lastLane := .ordinary
  pointer := 31

/-- R124: a FREE buffer. -/
def Buffer.powerOn : Buffer where
  state := .free
  key := none
  sectors := Vector.replicate 15 ⟨.absent, false⟩
  heldBy := none
  pending := []
  reloc := none

/-- R181: the work at power-on, with the input lines at the levels given. -/
def Work.powerOn (pins : Pins) : Work where
  restarting := false
  lastRestart := .powerOn
  nextArrival := 0
  desks := Vector.replicate 32 Desk.powerOn
  lines := Vector.ofFn fun l => Line.powerOn pins.deskReady[l] l
  handles := Vector.replicate 48 none
  retired := Vector.replicate 16 none
  queue := Vector.replicate 24 none
  drives := Vector.ofFn fun d => Drive.powerOn pins.ready[d] pins.protect[d]
  buffers := Vector.replicate 6 Buffer.powerOn
  lru := [0, 1, 2, 3, 4, 5]
  waitList := []
  poolDue := false
  owner := none
  lastGranted := 3

/-- Every input line low (log 5). -/
def Pins.low : Pins := ⟨Vector.replicate 4 false, Vector.replicate 4 false, Vector.replicate 4 false⟩

/-- R181: the machine right after power-on, with no command waiting and every input line low (log 5). -/
def State.reset : State where
  pending := []
  cfg := Cfg.powerOn
  work := Work.powerOn Pins.low

end Sys2Proof.Machine
end

