-- ==== Sys2Proof/Machine/Operands.lean ====
section
/-! DEFINITION. The operand forms: field ranges of requests, the names of desks and drives, the geometry of a volume,
extent lists and the pieces of a READ or a WRITE. -/

namespace Sys2Proof.Machine

open Sys2Proof

/-! ### Ranges -/

/-- R3, R39: A to Z, 0 to 9 and hyphen. -/
def nameChar (c : Byte) : Bool :=
  (0x41 ≤ c.toNat && c.toNat ≤ 0x5A) || (0x30 ≤ c.toNat && c.toNat ≤ 0x39) || c.toNat == 0x2D

/-- R39: a slug is 1 to 12 such characters. -/
def slugOk (s : Chars) : Bool := 1 ≤ s.length && s.length ≤ 12 && s.all nameChar

/-- R3, R19, R90: a volume or edition name is 1 to 8 such characters. -/
def nameOk (s : Chars) : Bool := 1 ≤ s.length && s.length ≤ 8 && s.all nameChar

/-- 00: drives are numbered 0 to 3. -/
def driveOf (n : Nat) : Option DriveId := if h : n < 4 then some ⟨n, h⟩ else none

/-- 00: lines are numbered 0 to 3. -/
def lineIdOf (n : Nat) : Option LineId := if h : n < 4 then some ⟨n, h⟩ else none

/-- R46: handle number n is the entry n − 1. -/
def handleOf (n : Nat) : Option HandleIx := if h : 1 ≤ n ∧ n ≤ 48 then some ⟨n - 1, by omega⟩ else none

/-- R46: the number of a handle entry. -/
def handleNumber (h : HandleIx) : Nat := h.val + 1

/-- 00: a desk's line. -/
def lineOf (d : DeskNo) : LineId := ⟨d.val / 8, by omega⟩

/-- 00: a desk's drop, 1 to 8. -/
def dropOf (d : DeskNo) : Nat := d.val % 8 + 1

/-- 00: the desk number of a line and a drop. -/
def deskOf (l : LineId) (drop : Nat) : DeskNo := ⟨l.val * 8 + (drop - 1) % 8, by omega⟩

/-- R81: the desk named by a line and a drop, if both are in range. -/
def deskNamed (line drop : Nat) : Option DeskNo :=
  match lineIdOf line with
  | some l => if 1 ≤ drop && drop ≤ 8 then some (deskOf l drop) else none
  | none => none

/-- 11.3: the class of a code. -/
def clsOf : Nat → Option Cls
  | 0 => some .reporter
  | 1 => some .copy
  | 2 => some .slot
  | 3 => some .supervisor
  | _ => none

/-- 11.3: the code of a class. -/
def clsCode : Cls → Nat
  | .reporter => 0
  | .copy => 1
  | .slot => 2
  | .supervisor => 3

/-- 11.3: the grant of a code. -/
def grantOf : Nat → Option Grant
  | 0 => some .none
  | 1 => some .read
  | 2 => some .readWrite
  | 3 => some .deposit
  | _ => none

/-- 11.3: the code of a grant. -/
def grantCode : Grant → Nat
  | .none => 0
  | .read => 1
  | .readWrite => 2
  | .deposit => 3

/-- 11.3: a flag of a request. -/
def flagOf : Nat → Option Bool
  | 0 => some false
  | 1 => some true
  | _ => none

/-- 11.3: the number of a flag. -/
def flagCode (b : Bool) : Nat := if b then 1 else 0

/-- 11.3: bit 0 REPORTER, bit 1 COPY, bit 2 SLOT, bit 3 SUPERVISOR; any other bit names no class (R83). -/
def classSetOf (n : Nat) : Option ClassSet :=
  if n < 16 then some ⟨n.testBit 0, n.testBit 1, n.testBit 2, n.testBit 3⟩ else none

/-- 11.3: the bits of a class set. -/
def classSetCode (c : ClassSet) : Nat :=
  flagCode c.reporter + 2 * flagCode c.copy + 4 * flagCode c.slot + 8 * flagCode c.supervisor

/-- R82: whether a class set holds a class. -/
def ClassSet.has (c : ClassSet) : Cls → Bool
  | .reporter => c.reporter
  | .copy => c.copy
  | .slot => c.slot
  | .supervisor => c.supervisor

/-- 11.3: the line format of a code. -/
def formatOf : Nat → Option LineFormat
  | 0 => some .f8N
  | 1 => some .f7E
  | 2 => some .f9M
  | _ => none

/-- 11.3: the code of a line format. -/
def formatCode : LineFormat → Nat
  | .f8N => 0
  | .f7E => 1
  | .f9M => 2

/-- 11.3: 0 for P, 1 for Q. -/
def generatorOf : Nat → Option Generator
  | 0 => some .p
  | 1 => some .q
  | _ => none

/-- 11.3: 0 for P, 1 for Q. -/
def generatorCode : Generator → Nat
  | .p => 0
  | .q => 1

/-- R83: the entry that a writing RULE gives, if every field is in range. -/
def RuleFields.entry? (f : RuleFields) : Option AccessRule :=
  match flagOf f.enabled, flagOf f.compare, classSetOf f.classes, grantOf f.grant with
  | some enabled, some compare, some classes, some grant =>
    if f.low ≤ 63 && f.high ≤ 63 && f.low ≤ f.high then
      some { enabled, low := f.low, high := f.high, compare, classes, grant }
    else none
  | _, _, _, _ => none

/-- All differ. -/
def distinct : List Nat → Bool
  | [] => true
  | x :: xs => !xs.contains x && distinct xs

/-- Minutes from one minute of the day forward to another, wrapping at 1440 (00, R90). -/
def forward (a b : Nat) : Nat := (b + 1440 - a) % 1440

/-- R90, R91: the fields of a writing EDITION are in range, its minutes differ and its lead is less than its open
span. -/
def EditionFields.inRange (f : EditionFields) : Bool :=
  nameOk f.name && (flagOf f.enabled).isSome && f.close ≤ 1439 && f.reopen ≤ 1439 && f.lead ≤ 60
    && 1 ≤ f.baskets.length && f.baskets.length ≤ 12 && f.baskets.all (· ≤ 63) && distinct f.baskets
    && f.close != f.reopen && decide (f.lead < forward f.reopen f.close)

/-! ### Characters -/

/-- R163: a character as a line of a format receives it: an 8N character has no parity bit, a 7E character seven data bits,
neither has an address mark, and a 9M character has no parity bit. -/
def lineChar (format : LineFormat) (c : LineChar) : LineChar :=
  match format with
  | .f8N => { c with mark := false, parityError := false }
  | .f7E => { c with mark := false, value := c.value &&& 0x7F }
  | .f9M => { c with parityError := false }

/-! ### Geometry -/

/-- R2: the block number of a place. -/
def blockAt (sides track side sector : Nat) : Nat :=
  if sides = 2 then (track * 2 + side) * 15 + sector else track * 15 + sector

/-- R2: the track of a block. -/
def blockTrack (sides block : Nat) : Nat := if sides = 2 then block / 15 / 2 else block / 15

/-- R2: the side of a block. -/
def blockSide (sides block : Nat) : Nat := if sides = 2 then block / 15 % 2 else 0

/-- R2: the sector of a block. -/
def blockSector (block : Nat) : Fin 15 := Fin.ofNat 15 block

/-- R2: the first data block. -/
def firstBlock (sides : Nat) : Nat := if sides = 2 then 60 else 30

/-- R2: the number of data blocks. -/
def dataBlocks (sides : Nat) : Nat := if sides = 2 then 2250 else 1125

/-- R2: whether a number names a data block. -/
def isDataBlock (sides block : Nat) : Bool :=
  firstBlock sides ≤ block && block < firstBlock sides + dataBlocks sides

/-- R2: the track-side of a block of a drive. -/
def keyOf (d : DriveId) (sides block : Nat) : TrackKey := ⟨d, blockTrack sides block, blockSide sides block⟩

/-- R4: the track and sector of a catalogue sector. -/
def catalogueTrack (c : Nat) : Nat := if c ≤ 13 then 0 else 1

/-- R4: the sector of a catalogue sector. -/
def catalogueSector (c : Nat) : Nat := if c ≤ 13 then c + 1 else c - 14

/-! ### Extent lists -/

/-- R5: the blocks of an extent list, in byte order. -/
def blocksOf (xs : List Extent) : List Nat := xs.flatMap fun e => List.range' e.start e.length

/-- R5: the blocks that a length needs. -/
def blocksFor (length : Nat) : Nat := (length + 255) / 256

/-- R58: a new block at the end of an extent list, or none when a ninth extent would be needed. -/
def addBlock (xs : List Extent) (b : Nat) : Option (List Extent) :=
  match xs.getLast? with
  | none => some [⟨b, 1⟩]
  | some e =>
    if b = e.start + e.length ∧ e.length < Config.maxExtentLength then some (xs.dropLast ++ [⟨e.start, e.length + 1⟩])
    else if xs.length < Config.maxExtents then some (xs ++ [⟨b, 1⟩])
    else none

/-- R60: the list without its last block. -/
def dropBlock (xs : List Extent) : List Extent :=
  match xs.getLast? with
  | none => xs
  | some e => if e.length ≤ 1 then xs.dropLast else xs.dropLast ++ [⟨e.start, e.length - 1⟩]

/-- R136: the run at hand goes on, or is closed and a new one begins. -/
def groupFrom (e : Extent) : List Nat → List Extent
  | [] => [e]
  | b :: bs =>
    if b = e.start + e.length ∧ e.length < Config.maxExtentLength then groupFrom ⟨e.start, e.length + 1⟩ bs
    else e :: groupFrom ⟨b, 1⟩ bs

/-- R136: blocks in byte order grouped into extents of consecutive numbers, at most 64 blocks each. -/
def groupBlocks : List Nat → List Extent
  | [] => []
  | b :: bs => groupFrom ⟨b, 1⟩ bs

/-- R136: the list with one block replaced by another, grouped again. -/
def replaceBlock (xs : List Extent) (old new : Nat) : List Extent :=
  groupBlocks ((blocksOf xs).map fun b => if b = old then new else b)

/-! ### Bytes of a version -/

/-- R54: the bytes from offset up to stop, cut where a block ends; at most `fuel` pieces. -/
def piecesFrom : Nat → List Nat → Nat → Nat → List Piece
  | 0, _, _, _ => []
  | fuel + 1, blocks, offset, stop =>
    if offset < stop then
      let n := min (256 - offset % 256) (stop - offset)
      match blocks[offset / 256]? with
      | some b => ⟨b, offset % 256, n⟩ :: piecesFrom fuel blocks (offset + n) stop
      | none => []
    else []

/-- R54: the pieces of a READ; a count of at most 192 touches at most two blocks. -/
def readPieces (xs : List Extent) (length offset count : Nat) : List Piece :=
  piecesFrom 3 (blocksOf xs) offset (min (offset + count) length)

/-- R58: whether a WRITE needs a new block. -/
def needsBlock (staged count : Nat) : Bool := staged % 256 == 0 || decide (256 < staged % 256 + count)

/-- R59: the bytes of a WRITE that go into the staged length's last block. -/
def tailPart (staged : Nat) (data : Chars) : Chars := if staged % 256 = 0 then [] else data.take (256 - staged % 256)

/-- R59: the bytes of a WRITE that go into its new block. -/
def newPart (staged : Nat) (data : Chars) : Chars := if staged % 256 = 0 then data else data.drop (256 - staged % 256)

/-- Exactly n bytes: cut or filled with zeros. -/
def pad (n : Nat) (cs : Chars) : Chars := cs.take n ++ List.replicate (n - cs.length) 0

/-- R59: a sector's content with bytes put at a place. -/
def overlay (content : Chars) (start : Nat) (data : Chars) : Chars :=
  content.take start ++ data ++ content.drop (start + data.length)

/-- R54: bytes out of a sector's content. -/
def slice (content : Chars) (start len : Nat) : Chars := (content.drop start).take len

end Sys2Proof.Machine
end

