-- ==== Sys2Proof/Machine/Flags.lean ====
section
/-! DEFINITION. What is derived and not stored: privileges and grants (R80, R84), edition states and basket status
(R93, R98), and the account of a volume's blocks (R24, R25). -/

namespace Sys2Proof.Machine

open Sys2Proof

/-! ### Classes and grants -/

/-- R80: the table of classes and kinds. -/
def classMay (c : Cls) : ReqKind → Bool
  | .list | .openStory | .read | .write | .file | .discard | .close | .create | .status | .cancel => true
  | .kill => c != .reporter
  | .breakIt => c == .slot || c == .supervisor
  | .format | .remount | .set | .query | .rule | .edition | .clock | .lineStatus | .restart => c == .supervisor

/-- R84: whether an entry matches a class and a basket. -/
def AccessRule.covers (r : AccessRule) (c : Cls) (basket : Nat) : Bool :=
  r.enabled && r.low ≤ basket && basket ≤ r.high && (!r.compare || r.classes.has c)

/-- R84: the grant of the first matching entry, or READ_WRITE. -/
def grantFor (cfg : Cfg) (c : Cls) (basket : Nat) : Grant :=
  match cfg.rules.toList.find? (·.covers c basket) with
  | some r => r.grant
  | none => .readWrite

/-- R43, R85: a grant that lets a desk see and read a story. -/
def Grant.mayRead : Grant → Bool
  | .read | .readWrite => true
  | .none | .deposit => false

/-- R85: a grant that lets a desk change or kill a story. -/
def Grant.mayEdit (g : Grant) : Bool := g == .readWrite

/-- R53: a grant that lets a desk make a new story. -/
def Grant.mayCreate (g : Grant) : Bool := g == .readWrite || g == .deposit

/-- R79: the class of a desk, read at the moment of a test. -/
def Cfg.cls (cfg : Cfg) (d : DeskNo) : Cls := cfg.classes[d]

/-! ### Editions -/

/-- R90: the closed span. -/
def Edition.closedSpan (e : Edition) : Nat := forward e.close e.reopen

/-- R93: the derived state of an entry under a clock. -/
def Edition.derived (e : Edition) : Clock → EditionState
  | .unset => if e.enabled then .scheduled else .disabled
  | .running m =>
    if !e.enabled then .disabled
    else if forward e.close m < e.closedSpan then .closed
    else if 0 < e.lead ∧ 1 ≤ forward m e.close ∧ forward m e.close ≤ e.lead then .warning
    else .scheduled

/-- R98: a basket is closed if any entry in state CLOSED lists it. -/
def basketClosed (cfg : Cfg) (basket : Nat) : Bool :=
  cfg.editions.toList.any fun e => e.state == .closed && e.baskets.contains basket

/-- R98: a basket is in warning if any entry in state WARNING lists it and it is not closed. -/
def basketWarning (cfg : Cfg) (basket : Nat) : Bool :=
  (cfg.editions.toList.any fun e => e.state == .warning && e.baskets.contains basket) && !basketClosed cfg basket

/-- R89: the closed-basket test of a request, which a SLOT desk passes. -/
def closedFor (cfg : Cfg) (desk : DeskNo) (basket : Nat) : Bool :=
  basketClosed cfg basket && cfg.cls desk != .slot

/-! ### The free-space map -/

/-- R24: the state of a block; an unlisted data block is FREE. -/
def cellState : List (Nat × BlockState) → Nat → BlockState
  | [], _ => .free
  | (c, st) :: rest, b => if c = b then st else cellState rest b

/-- The list with one block at a state: blocks rise, and no listed block is FREE. -/
def putCell (b : Nat) (st : BlockState) : List (Nat × BlockState) → List (Nat × BlockState)
  | [] => if st = .free then [] else [(b, st)]
  | (c, t) :: rest =>
    if b < c then (if st = .free then (c, t) :: rest else (b, st) :: (c, t) :: rest)
    else if b = c then (if st = .free then rest else (b, st) :: rest)
    else (c, t) :: putCell b st rest

/-- The canonical form: blocks rise from the bound on, and none is FREE. -/
def cellsFrom (bound : Nat) : List (Nat × BlockState) → Bool
  | [] => true
  | (c, st) :: rest => bound ≤ c && st != .free && cellsFrom (c + 1) rest

/-- Blocks set to one state, in turn. -/
def putCells (bs : List Nat) (st : BlockState) (cells : List (Nat × BlockState)) : List (Nat × BlockState) :=
  bs.foldl (fun cs b => putCell b st cs) cells

/-- A volume whose blocks are set to one state. -/
def Media.mark (m : Media) (bs : List Nat) (st : BlockState) : Media := { m with cells := putCells bs st m.cells }

/-- R24: the five counts, whose sum is the number of data blocks. -/
def Media.counts (m : Media) : BlockCounts :=
  let n := fun st => m.cells.countP fun c => c.2 == st
  { free := dataBlocks m.label.sides - m.cells.length, staged := n .staged, filed := n .filed, retired := n .retired,
    bad := n .bad }

/-- R25: the first FREE block among n blocks from b on. -/
def scanFree (cells : List (Nat × BlockState)) : Nat → Nat → Option Nat
  | 0, _ => none
  | n + 1, b => if cellState cells b = .free then some b else scanFree cells n (b + 1)

/-- R25: the block that next-fit finds: from the cursor to the last data block, then from the first. -/
def Media.nextFit (m : Media) : Option Nat :=
  let first := firstBlock m.label.sides
  let past := first + dataBlocks m.label.sides
  match scanFree m.cells (past - m.cursor) m.cursor with
  | some b => some b
  | none => scanFree m.cells (m.cursor - first) first

/-- R25: allocation of one block, or none for VOLUME_FULL. -/
def Media.allocate (m : Media) : Option (Nat × Media) :=
  match m.nextFit with
  | none => none
  | some b =>
    let past := firstBlock m.label.sides + dataBlocks m.label.sides
    some (b, { m with cells := putCell b .staged m.cells,
                      cursor := if b + 1 < past then b + 1 else firstBlock m.label.sides,
                      lastAlloc := some (b, m.cursor) })

/-- R25: a block handed back becomes FREE; the cursor goes back if no other allocation came after. -/
def Media.giveBack (m : Media) (b : Nat) : Media :=
  { m with cells := putCell b .free m.cells,
           cursor := match m.lastAlloc with
             | some (a, c) => if a = b then c else m.cursor
             | none => m.cursor,
           lastAlloc := match m.lastAlloc with
             | some (a, c) => if a = b then none else some (a, c)
             | none => none }

/-- R26: a block that became BAD is recorded for the label, or the bad-list-full flag is set. -/
def Media.recordBad (m : Media) (b : Nat) : Media :=
  if m.label.badBlocks.length + m.additions.length < Config.badListSize then
    { m with cells := putCell b .bad m.cells, additions := m.additions ++ [b] }
  else { m with cells := putCell b .bad m.cells, badListFull := true }

/-! ### The catalogue -/

/-- R28: the slots that are not EMPTY. -/
def Media.slotsUsed (m : Media) : Nat := m.catalogue.toList.countP fun s => s != .empty

/-- The catalogue slots in ascending order. -/
def catSlots : List CatSlot := List.finRange 116

/-- R31: what a slug lookup finds. -/
inductive Lookup where
  | filed (slot : CatSlot) (story : Story) (killPending : Option DeskNo)
  | reserved (slot : CatSlot) (basket : Nat)
  | damaged (slot : CatSlot)
  | none
  deriving DecidableEq, Repr

/-- R31: the FILED slot, else the RESERVED slot, else the lowest DAMAGED slot that remembers the slug. -/
def Media.lookup (m : Media) (slug : Chars) : Lookup :=
  let filed := catSlots.findSome? fun i =>
    match m.catalogue[i] with
    | .filed st k => if st.slug = slug then some (Lookup.filed i st k) else Option.none
    | _ => Option.none
  let reserved := catSlots.findSome? fun i =>
    match m.catalogue[i] with
    | .reserved g b => if g = slug then some (Lookup.reserved i b) else Option.none
    | _ => Option.none
  let damaged := catSlots.findSome? fun i =>
    match m.catalogue[i] with
    | .damaged (some g) _ => if g = slug then some (Lookup.damaged i) else Option.none
    | _ => Option.none
  (filed.or (reserved.or damaged)).getD .none

/-- R32: the lowest EMPTY slot. -/
def Media.lowestEmpty (m : Media) : Option CatSlot := catSlots.find? fun i => m.catalogue[i] == .empty

/-- R98: the basket of a slot, as the catalogue holds it. -/
def Slot.basket? : Slot → Option Nat
  | .filed st _ => some st.basket
  | .reserved _ b => some b
  | .empty => none
  | .damaged _ _ => none

/-- A volume with one slot replaced. -/
def Media.setSlot (m : Media) (i : CatSlot) (s : Slot) : Media := { m with catalogue := m.catalogue.set i s }

end Sys2Proof.Machine
end

