-- ==== Sys2Proof/Machine/Records.lean ====
section
/-! DEFINITION. The records of a diskette: the label and the catalogue entries (R3, R10, R35, R185). -/

namespace Sys2Proof.Machine

open Sys2Proof

/-- 11: a number of two bytes, high byte first. -/
def be2 (n : Nat) : Chars := [byte (n / 256), byte n]

/-- 11: a number of three bytes, high byte first. -/
def be3 (n : Nat) : Chars := [byte (n / 65536), byte (n / 256), byte n]

/-- A byte of a record, zero past its end. -/
def byteAt (bs : Chars) (i : Nat) : Nat := (bs.getD i 0).toNat

/-- A number of two bytes out of a record. -/
def num2 (bs : Chars) (i : Nat) : Nat := byteAt bs i * 256 + byteAt bs (i + 1)

/-- A number of three bytes out of a record. -/
def num3 (bs : Chars) (i : Nat) : Nat := byteAt bs i * 65536 + byteAt bs (i + 1) * 256 + byteAt bs (i + 2)

/-- R185: a name ends before its first zero byte. R185 says so of the volume name; that a slug field ends there too, whatever
stands after the zero, is the model's choice (log 47). -/
def trimZeros (bs : Chars) : Chars := bs.takeWhile (· != 0)

/-! ### Catalogue entries -/

/-- R185: an extent; a length of 64 is stored as 0. -/
def extentBytes (e : Extent) : Chars := be2 e.start ++ [byte (if e.length = 64 then 0 else e.length)]

/-- R185: FFFFh for "no time". -/
def minuteCode : Option Nat → Nat
  | some m => m
  | none => 0xFFFF

/-- R185: a FILED entry. -/
def filedEntry (st : Story) : Chars :=
  pad 12 st.slug ++ [byte st.basket, 0x46] ++ be2 st.version ++ be2 st.length ++ [byte st.filedBy.val]
    ++ be2 (minuteCode st.minute) ++ [byte st.extents.length] ++ pad 24 (st.extents.flatMap extentBytes)
    ++ List.replicate 18 0

/-- R185: an EMPTY entry. -/
def emptyEntry : Chars := List.replicate 64 0

/-- R35, R185: the stored bytes with the damaged mark as their state byte. -/
def damagedEntry (stored : Chars) : Chars := (pad 64 stored).set 13 0x44

/-- R35: a slot as it is rendered. A DAMAGED slot without stored bytes cannot be named (R35); log 21. -/
def slotEntry : Slot → Chars
  | .empty => emptyEntry
  | .reserved _ _ => emptyEntry
  | .filed st _ => filedEntry st
  | .damaged _ (some stored) => damagedEntry stored
  | .damaged _ none => damagedEntry emptyEntry

/-- R4: slot k of catalogue sector c. -/
def sectorSlot (c : Nat) (k : Fin 4) : CatSlot := ⟨(4 * c + k.val) % 116, by omega⟩

/-- R35: the image of a catalogue sector in which one slot is rendered by the entry given. -/
def catalogueImage (m : Media) (c : Nat) (slot : CatSlot) (pendingEntry : Chars) : Chars :=
  (List.finRange 4).flatMap fun k =>
    if sectorSlot c k = slot then pendingEntry else slotEntry m.catalogue[sectorSlot c k]

/-- R35: the pending entry, a FILED entry for FILE and an EMPTY entry for KILL. -/
def pendingBytes : Option Story → Chars
  | some st => filedEntry st
  | none => emptyEntry

/-- R21: a catalogue sector written by FORMAT. -/
def emptySectorImage : Chars := List.replicate 256 0

/-- R185: the eight extents of an entry, the first as many as its count; a stored 0 is 64. -/
def readExtents (bs : Chars) (count : Nat) : List Extent :=
  (List.range count).map fun i =>
    let n := byteAt bs (22 + 3 * i + 2)
    ⟨num2 bs (22 + 3 * i), if n = 0 then 64 else n⟩

/-- R185: the story that the 64 bytes of an entry give. -/
def readStory (bs : Chars) : Story where
  slug := trimZeros (bs.take 12)
  basket := byteAt bs 12
  version := num2 bs 14
  length := num2 bs 16
  filedBy := Fin.ofNat 32 (byteAt bs 18)
  minute := if num2 bs 19 = 0xFFFF then none else some (num2 bs 19)
  extents := readExtents bs (byteAt bs 21)

/-- R10: the tests of a FILED entry that look at the entry and the label alone. -/
def storyOk (label : Label) (bs : Chars) : Bool :=
  let st := readStory bs
  let blocks := blocksOf st.extents
  slugOk st.slug && st.basket ≤ 63 && 1 ≤ st.version && st.version ≤ 9999 && st.length ≤ Config.maxStory
    && byteAt bs 18 ≤ 31 && (num2 bs 19 ≤ 1439 || num2 bs 19 == 0xFFFF) && byteAt bs 21 ≤ 8
    && st.extents.all (fun e => e.length ≤ 64) && blocks.length == blocksFor st.length
    && blocks.all (fun b => isDataBlock label.sides b && !label.badBlocks.contains b) && distinct blocks

/-- R29: a DAMAGED slot from a readable sector, with its remembered slug and stored bytes. -/
def damagedFrom (bs : Chars) : Slot :=
  let slug := trimZeros (bs.take 12)
  .damaged (if slugOk slug then some slug else none) (some bs)

/-- R10: the slot that an entry gives, under the slugs and blocks claimed by lower-numbered FILED slots. -/
def judgeEntry (label : Label) (slugs : List Chars) (claimed : List Nat) (bs : Chars) : Slot :=
  if byteAt bs 13 = 0x00 then .empty
  else if byteAt bs 13 = 0x46 then
    let st := readStory bs
    if storyOk label bs && !slugs.contains st.slug && (blocksOf st.extents).all (fun b => !claimed.contains b) then
      .filed st none
    else damagedFrom bs
  else damagedFrom bs

/-- R9, R10: the slots in ascending order; an absent entry lies in an unreadable sector. -/
def judgeEntries (label : Label) : List Chars → List Nat → List (Option Chars) → List Slot
  | _, _, [] => []
  | slugs, claimed, none :: rest => .damaged none none :: judgeEntries label slugs claimed rest
  | slugs, claimed, some bs :: rest =>
    let slot := judgeEntry label slugs claimed bs
    match slot with
    | .filed st _ => slot :: judgeEntries label (st.slug :: slugs) (blocksOf st.extents ++ claimed) rest
    | _ => slot :: judgeEntries label slugs claimed rest

/-- R4: the four entries of a catalogue sector as read. -/
def sectorEntries : Option Chars → List (Option Chars)
  | none => [none, none, none, none]
  | some bs => [some (slice bs 0 64), some (slice bs 64 64), some (slice bs 128 64), some (slice bs 192 64)]

/-- R9, R10: the in-memory catalogue of the 29 catalogue sectors as read. -/
def readCatalogue (label : Label) (sectors : List (Option Chars)) : Vector Slot 116 :=
  let slots := judgeEntries label [] [] (sectors.flatMap sectorEntries)
  Vector.ofFn fun i => slots.getD i.val .empty

/-! ### The label -/

/-- R3: the characters DWF1. -/
def formatMark : Chars := [0x44, 0x57, 0x46, 0x31]

/-- R185: the label sector. -/
def labelImage (l : Label) : Chars :=
  formatMark ++ pad 8 l.name ++ be3 l.serial ++ [byte l.sides, byte l.badBlocks.length]
    ++ pad 32 (l.badBlocks.flatMap be2) ++ List.replicate 207 0

/-- R8: what a label sector gives. -/
inductive LabelRead where
  | foreign
  | invalid
  | valid (label : Label)
  deriving DecidableEq, Repr

/-- R3, R8, R185: a label without the mark is foreign, and one with it is valid or invalid. -/
def readLabel (bs : Chars) : LabelRead :=
  if bs.take 4 = formatMark then
    let label : Label :=
      { name := trimZeros (slice bs 4 8), serial := num3 bs 12, sides := byteAt bs 15,
        badBlocks := (List.range (byteAt bs 16)).map fun i => num2 bs (17 + 2 * i) }
    if nameOk label.name && 1 ≤ label.serial && label.serial ≤ 999999 && (label.sides == 1 || label.sides == 2)
        && byteAt bs 16 ≤ 16 && label.badBlocks.all (isDataBlock label.sides) && distinct label.badBlocks then
      .valid label
    else .invalid
  else .foreign

/-- R11: the volume that a mount or a FORMAT makes of a label and a catalogue. -/
def freshMedia (label : Label) (catalogue : Vector Slot 116) : Media :=
  let filed := catalogue.toList.flatMap fun s =>
    match s with
    | .filed st _ => blocksOf st.extents
    | _ => []
  { label, additions := [], badListFull := false,
    cells := putCells filed .filed (putCells label.badBlocks .bad []),
    cursor := firstBlock label.sides, lastAlloc := none, catalogue }

end Sys2Proof.Machine
end

