-- ==== Sys2Proof/Machine/Format.lean ====
section
/-! DEFINITION. Frames: how a reply or a notice is composed in either form, and how a request is read from one
(R182, R183, R184, section 11.3). -/

namespace Sys2Proof.Machine

open Sys2Proof

/-- The printable values of a word (R182). -/
def word (s : String) : Chars := s.toList.map fun c => byte c.toNat

/-! ### Codes and names (11.3) -/

/-- R182: the kind code of a request. -/
def kindCode : ReqKind → Nat
  | .list => 0x10
  | .openStory => 0x11
  | .read => 0x12
  | .write => 0x13
  | .file => 0x14
  | .discard => 0x15
  | .close => 0x16
  | .create => 0x17
  | .kill => 0x18
  | .breakIt => 0x19
  | .status => 0x1A
  | .cancel => 0x1B
  | .format => 0x1C
  | .remount => 0x1D
  | .set => 0x1E
  | .query => 0x1F
  | .rule => 0x20
  | .edition => 0x21
  | .clock => 0x22
  | .lineStatus => 0x23
  | .restart => 0x24

/-- R182, R183: the name of a request. -/
def kindName : ReqKind → Chars
  | .list => word "LIST"
  | .openStory => word "OPEN"
  | .read => word "READ"
  | .write => word "WRITE"
  | .file => word "FILE"
  | .discard => word "DISCARD"
  | .close => word "CLOSE"
  | .create => word "CREATE"
  | .kill => word "KILL"
  | .breakIt => word "BREAK"
  | .status => word "STATUS"
  | .cancel => word "CANCEL"
  | .format => word "FORMAT"
  | .remount => word "REMOUNT"
  | .set => word "SET"
  | .query => word "QUERY"
  | .rule => word "RULE"
  | .edition => word "EDITION"
  | .clock => word "CLOCK"
  | .lineStatus => word "LINE_STATUS"
  | .restart => word "RESTART"

/-- R80: every request kind. -/
def allKinds : List ReqKind :=
  [.list, .openStory, .read, .write, .file, .discard, .close, .create, .kill, .breakIt, .status, .cancel, .format,
   .remount, .set, .query, .rule, .edition, .clock, .lineStatus, .restart]

/-- R182: the request kind of a kind code. -/
def kindOfCode (n : Nat) : Option ReqKind := allKinds.find? fun k => kindCode k == n

/-- R183: the request kind of a keyword. -/
def kindOfName (w : Chars) : Option ReqKind := allKinds.find? fun k => kindName k == w

/-- 11.3: the result codes with their names, in order. -/
def codeName : ResultCode → Nat × String
  | .ok => (0, "OK")
  | .busy => (1, "BUSY")
  | .queueFull => (2, "QUEUE_FULL")
  | .badRequest => (3, "BAD_REQUEST")
  | .notPermitted => (4, "NOT_PERMITTED")
  | .denied => (5, "DENIED")
  | .noDrive => (6, "NO_DRIVE")
  | .notMounted => (7, "NOT_MOUNTED")
  | .volumeGone => (8, "VOLUME_GONE")
  | .writeProtected => (9, "PROTECTED")
  | .writeFaulted => (10, "WRITE_FAULTED")
  | .noStory => (11, "NO_STORY")
  | .exists_ => (12, "EXISTS")
  | .damaged => (13, "DAMAGED")
  | .locked => (14, "LOCKED")
  | .noHandle => (15, "NO_HANDLE")
  | .badHandle => (16, "BAD_HANDLE")
  | .wrongMode => (17, "WRONG_MODE")
  | .offset => (18, "OFFSET")
  | .tooLong => (19, "TOO_LONG")
  | .fragmented => (20, "FRAGMENTED")
  | .volumeFull => (21, "VOLUME_FULL")
  | .catalogueFull => (22, "CATALOGUE_FULL")
  | .closed => (23, "CLOSED")
  | .frozen => (24, "FROZEN")
  | .broken => (25, "BROKEN")
  | .lost => (26, "LOST")
  | .superseded => (27, "SUPERSEDED")
  | .inProgress => (28, "IN_PROGRESS")
  | .inUse => (29, "IN_USE")
  | .versionLimit => (30, "VERSION_LIMIT")
  | .mediaError => (31, "MEDIA_ERROR")
  | .cancelled => (32, "CANCELLED")

/-- 11.3. -/
def clsName : Cls → Chars
  | .reporter => word "REPORTER"
  | .copy => word "COPY"
  | .slot => word "SLOT"
  | .supervisor => word "SUPERVISOR"

/-- 11.3. -/
def grantName : Grant → Chars
  | .none => word "NONE"
  | .read => word "READ"
  | .readWrite => word "READ_WRITE"
  | .deposit => word "DEPOSIT"

/-- 11.3. -/
def formatName : LineFormat → Chars
  | .f8N => word "8N"
  | .f7E => word "7E"
  | .f9M => word "9M"

/-- R183. -/
def generatorName : Generator → Chars
  | .p => word "P"
  | .q => word "Q"

/-- 11.3. -/
def judgementCode : Judgement → Nat × String
  | .disabled => (0, "DISABLED")
  | .unjudged => (1, "UNJUDGED")
  | .text => (2, "TEXT")
  | .packed => (3, "PACKED")

/-- 11.3. -/
def presenceCode : Presence → Nat × String
  | .unknown => (0, "UNKNOWN")
  | .present => (1, "PRESENT")
  | .absent => (2, "ABSENT")

/-- 11.3. -/
def volCode : VolState → Nat × String
  | .absent => (0, "ABSENT")
  | .mounting => (1, "MOUNTING")
  | .mounted => (2, "MOUNTED")
  | .writeProtected => (3, "PROTECTED")
  | .writeFaulted => (4, "WRITE_FAULTED")
  | .foreign => (5, "FOREIGN")
  | .unreadable => (6, "UNREADABLE")
  | .formatting => (7, "FORMATTING")

/-- 11.3: in the order of the table of R141. -/
def mechCode : Mech → Nat × String
  | .notReady => (0, "NOT_READY")
  | .unloaded => (1, "UNLOADED")
  | .loading => (2, "LOADING")
  | .idle => (3, "IDLE")
  | .stepping => (4, "STEPPING")
  | .settling => (5, "SETTLING")
  | .waitChannel => (6, "WAIT_CHANNEL")
  | .transferring => (7, "TRANSFERRING")
  | .recalibrating => (8, "RECALIBRATING")
  | .faulted => (9, "FAULTED")

/-- 11.3. -/
def editionStateCode : EditionState → Nat × String
  | .disabled => (0, "DISABLED")
  | .scheduled => (1, "SCHEDULED")
  | .warning => (2, "WARNING")
  | .closed => (3, "CLOSED")

/-- 11.3. -/
def causeCode : RestartCause → Nat × String
  | .powerOn => (0, "POWER_ON")
  | .restart => (1, "RESTART")

/-- R182: the code of a notice. -/
def noticeCode : Notice → Nat × String
  | .refiled _ _ _ => (0x40, "REFILED")
  | .killed _ _ => (0x41, "KILLED")
  | .broken _ _ => (0x42, "BROKEN")
  | .lost _ _ => (0x43, "LOST")
  | .warning _ _ _ => (0x44, "WARNING")
  | .closed _ _ => (0x45, "CLOSED")
  | .reopened _ => (0x46, "REOPENED")
  | .restarted => (0x47, "RESTARTED")

/-! ### Packed fields -/

/-- One byte. -/
def be1 (n : Nat) : Chars := [byte n]

/-- R184: a desk byte, line × 16 plus drop. -/
def deskByte (d : DeskNo) : Nat := (lineOf d).val * 16 + dropOf d

/-- R184: 0 where no desk is named. -/
def deskByte? : Option DeskNo → Nat
  | some d => deskByte d
  | none => 0

/-- R184: a count and the characters, with zero bytes after the last. -/
def counted (size : Nat) (cs : Chars) : Chars := be1 cs.length ++ pad size cs

/-- 11.3: a basket list in twelve bytes after its count; those past the counted ones are zero, the model's choice (log 15). -/
def basketBytes (bs : List Nat) : Chars := counted 12 (bs.map fun n => byte n)

/-- R184: the 24 bytes of a LIST entry. -/
def packedEntry : ListEntry → Chars
  | .filed slot st holder =>
    be1 slot.val ++ be1 2 ++ counted 12 st.slug ++ be1 st.basket ++ be2 st.version ++ be2 st.length
      ++ be1 (deskByte st.filedBy) ++ be2 (minuteCode st.minute) ++ be1 (deskByte? holder)
  | .reserved slot slug basket holder =>
    be1 slot.val ++ be1 1 ++ counted 12 slug ++ be1 basket ++ be2 0 ++ be2 0 ++ be1 0 ++ be2 0xFFFF
      ++ be1 (deskByte? holder)
  | .damaged slot slug => be1 slot.val ++ be1 3 ++ counted 12 (slug.getD []) ++ List.replicate 9 0

/-- 11.3: the seven counts, in the order of R162. -/
def countList (c : Counts) : List Nat := [c.parity, c.framing, c.gap, c.check, c.length, c.stray, c.wrongForm]

/-- 11.3: the STATUS fields; those that have no value are zero. -/
def packedStatus (r : StatusReport) : Chars :=
  let label := match r.label with
    | some (name, serial, sides) => counted 8 name ++ be3 serial ++ be1 sides
    | none => List.replicate 13 0
  let counts := match r.counts with
    | some c => be2 c.free ++ be2 c.staged ++ be2 c.filed ++ be2 c.retired ++ be2 c.bad
    | none => List.replicate 10 0
  let clock := match r.clock with
    | .unset => be1 0 ++ be2 0xFFFF
    | .running m => be1 1 ++ be2 m
  be1 (volCode r.vol).1 ++ label ++ counts ++ be1 (r.slotsUsed.getD 0) ++ be1 r.checkOuts
    ++ be1 (flagCode r.badListFull) ++ be1 (mechCode r.mech).1 ++ clock ++ be1 (causeCode r.cause).1

/-- 11.3: the six fields of an access rule entry. -/
def packedRule (r : AccessRule) : Chars :=
  be1 (flagCode r.enabled) ++ be1 r.low ++ be1 r.high ++ be1 (flagCode r.compare) ++ be1 (classSetCode r.classes)
    ++ be1 (grantCode r.grant)

/-- 11.3: the six fields of an edition, its pending list and its state. -/
def packedEdition (e : Edition) : Chars :=
  counted 8 e.name ++ be1 (flagCode e.enabled) ++ be2 e.close ++ be2 e.reopen ++ be1 e.lead ++ basketBytes e.baskets
    ++ basketBytes (e.pendingBaskets.getD []) ++ be1 (editionStateCode e.state).1

/-- 11.3: the LINE_STATUS fields; those of the other kind of line are zero. -/
def packedLine (r : LineReport) : Chars :=
  let side := match r.side with
    | .multidrop cycle drops =>
      be1 cycle ++ be1 drops.length
        ++ drops.flatMap (fun (n, p, k) => be1 n ++ be1 (presenceCode p).1 ++ be1 k) ++ be1 0 ++ be1 0
    | .pointToPoint ready p => be1 0 ++ be1 0 ++ be1 (flagCode ready) ++ be1 (presenceCode p).1
  be1 (flagCode r.enabled) ++ be1 (formatCode r.format) ++ be1 (generatorCode r.generator) ++ be1 (r.baud / 100)
    ++ be1 (judgementCode r.judgement).1 ++ be1 r.frames ++ be1 r.notices ++ side ++ (countList r.counts).flatMap be2

/-- 11.3, R184: the result fields of a reply in packed form. -/
def packedBody : ReplyBody → Chars
  | .none => []
  | .locked d => be1 (deskByte d)
  | .list final entries => be1 (flagCode final) ++ be1 entries.length ++ entries.flatMap packedEntry
  | .opened h slot basket version length =>
    be1 (handleNumber h) ++ be1 slot.val ++ be1 basket ++ be2 version ++ be2 length
  | .read offset data => be2 offset ++ be1 data.length ++ data
  | .written n => be2 n
  | .filed version previous length => be2 version ++ be2 previous ++ be2 length
  | .created h slot => be1 (handleNumber h) ++ be1 slot.val
  | .killed slug version => counted 12 slug ++ be2 version
  | .broken d => be1 (deskByte d)
  | .status r => packedStatus r
  | .formatted n => be1 n
  | .remounted v => be1 (volCode v).1
  | .setting _ v => be2 v
  | .rule r => packedRule r
  | .edition e => packedEdition e
  | .clock m previous => be2 m ++ be2 (match previous with | .unset => 0xFFFF | .running p => p)
  | .lineStatus r => packedLine r

/-- 11.3: the fields of a notice in packed form. -/
def packedNotice : Notice → Chars
  | .refiled h v w => be1 (handleNumber h) ++ be2 v ++ be1 (flagCode w)
  | .killed h w => be1 (handleNumber h) ++ be1 (flagCode w)
  | .broken h d => be1 (handleNumber h) ++ be1 (deskByte d)
  | .lost d hs => be1 d.val ++ be1 hs.length ++ hs.map fun h => byte (handleNumber h)
  | .warning name m h => counted 8 name ++ be1 m ++ be1 (handleNumber h)
  | .closed name h => counted 8 name ++ be1 (handleNumber h)
  | .reopened h => be1 (handleNumber h)
  | .restarted => []

/-- The sum of bytes. -/
def byteSum (bs : Chars) : Nat := (bs.map BitVec.toNat).foldr (· + ·) 0

/-- R182: lead byte, length, the bytes from the kind on, and the check byte. -/
def packedFrame (fields : Chars) : Chars :=
  let counted := byte (fields.length + 1) :: fields
  (0x02 : Byte) :: counted ++ [byte (256 - byteSum counted % 256)]

/-! ### Text tokens -/

/-- R183: a number in decimal digits. -/
def number (n : Nat) : Chars := (Nat.toDigits 10 n).map fun c => byte c.toNat

/-- R183: a hyphen. -/
def hyphen : Chars := [0x2D]

/-- R183: a flag. -/
def flagToken (b : Bool) : Chars := number (flagCode b)

/-- R183: a desk as line.drop. -/
def deskToken (d : DeskNo) : Chars := number (lineOf d).val ++ [0x2E] ++ number (dropOf d)

/-- R183: a hyphen where no desk is named. -/
def deskToken? : Option DeskNo → Chars
  | some d => deskToken d
  | none => hyphen

/-- Tokens joined by a separator. -/
def joinWith (sep : Byte) : List Chars → Chars
  | [] => []
  | [t] => t
  | t :: u :: ts => t ++ sep :: joinWith sep (u :: ts)

/-- R183: numbers joined by commas. -/
def numberList (ns : List Nat) : Chars := joinWith 0x2C (ns.map number)

/-- R183: a minute, or a hyphen where it is absent. -/
def minuteToken : Option Nat → Chars
  | some m => number m
  | none => hyphen

/-- R183: one hexadecimal digit. -/
def hexDigit (n : Nat) : Byte := if n < 10 then byte (0x30 + n) else byte (0x41 + (n - 10))

/-- R183: a pair of hexadecimal digits for each byte. -/
def hexData (bs : Chars) : Chars := bs.flatMap fun b => [hexDigit (b.toNat / 16), hexDigit (b.toNat % 16)]

/-- R183: the class set, in the order of R79, which is the model's choice (log 14), or a hyphen when it is empty. -/
def classSetToken (c : ClassSet) : Chars :=
  match [Cls.reporter, .copy, .slot, .supervisor].filter c.has with
  | [] => hyphen
  | cs => joinWith 0x2C (cs.map clsName)

/-- R184: the nine tokens of a LIST entry. -/
def textEntry : ListEntry → List Chars
  | .filed slot st holder =>
    [number slot.val, word "F", st.slug, number st.basket, number st.version, number st.length, deskToken st.filedBy,
     minuteToken st.minute, deskToken? holder]
  | .reserved slot slug basket holder =>
    [number slot.val, word "R", slug, number basket, number 0, number 0, hyphen, hyphen, deskToken? holder]
  | .damaged slot slug => [number slot.val, word "D", slug.getD hyphen] ++ List.replicate 6 hyphen

/-- 11.3, R183: the STATUS tokens; those that have no value are hyphens. -/
def textStatus (r : StatusReport) : List Chars :=
  let label := match r.label with
    | some (name, serial, sides) => [name, number serial, number sides]
    | none => List.replicate 3 hyphen
  let counts := match r.counts with
    | some c => [number c.free, number c.staged, number c.filed, number c.retired, number c.bad]
    | none => List.replicate 5 hyphen
  let clock := match r.clock with
    | .unset => [flagToken false, hyphen]
    | .running m => [flagToken true, number m]
  [word (volCode r.vol).2] ++ label ++ counts ++ [minuteToken r.slotsUsed, number r.checkOuts, flagToken r.badListFull,
    word (mechCode r.mech).2] ++ clock ++ [word (causeCode r.cause).2]

/-- R183: the tokens of an access rule entry. -/
def textRule (r : AccessRule) : List Chars :=
  [flagToken r.enabled, number r.low, number r.high, flagToken r.compare, classSetToken r.classes, grantName r.grant]

/-- R183: the tokens of an edition (log 14). -/
def textEdition (e : Edition) : List Chars :=
  [e.name, flagToken e.enabled, number e.close, number e.reopen, number e.lead, numberList e.baskets,
   match e.pendingBaskets with | some bs => numberList bs | none => hyphen, word (editionStateCode e.state).2]

/-- R183: the tokens of a LINE_STATUS reply; those of the other kind of line are hyphens (log 14). -/
def textLine (r : LineReport) : List Chars :=
  let side := match r.side with
    | .multidrop cycle drops =>
      [number cycle, number drops.length]
        ++ drops.flatMap (fun (n, p, k) => [number n, word (presenceCode p).2, number k]) ++ [hyphen, hyphen]
    | .pointToPoint ready p => [hyphen, hyphen, flagToken ready, word (presenceCode p).2]
  [flagToken r.enabled, formatName r.format, generatorName r.generator, number (r.baud / 100),
   word (judgementCode r.judgement).2, number r.frames, number r.notices] ++ side ++ (countList r.counts).map number

/-- 11.3: the drops of a drop set. -/
def dropsOf (mask : Nat) : List Nat := (List.range 8).filterMap fun i => if mask.testBit i then some (i + 1) else none

/-- 11.3: drop n in bit n − 1. -/
def dropMask (drops : List Nat) : Nat := (List.range 8).foldl (fun m i => if drops.contains (i + 1) then m + 2 ^ i else m) 0

/-- R183: a SET or QUERY value in text form, by its item's number. -/
def valueToken (item value : Nat) : Chars :=
  match item with
  | 2 => match formatOf value with | some f => formatName f | none => number value
  | 3 => match generatorOf value with | some g => generatorName g | none => number value
  | 4 => numberList (dropsOf value)
  | 6 => number (value * 100)
  | 13 => match clsOf value with | some c => clsName c | none => number value
  | _ => number value

/-- 11.3, R184: the result fields of a reply in text form. -/
def textBody : ReplyBody → List Chars
  | .none => []
  | .locked d => [deskToken d]
  | .list final entries => [flagToken final, number entries.length] ++ entries.flatMap textEntry
  | .opened h slot basket version length =>
    [number (handleNumber h), number slot.val, number basket, number version, number length]
  | .read offset data => [number offset, number data.length] ++ (if data = [] then [] else [hexData data])
  | .written n => [number n]
  | .filed version previous length => [number version, number previous, number length]
  | .created h slot => [number (handleNumber h), number slot.val]
  | .killed slug version => [slug, number version]
  | .broken d => [deskToken d]
  | .status r => textStatus r
  | .formatted n => [number n]
  | .remounted v => [word (volCode v).2]
  | .setting item v => [valueToken item v]
  | .rule r => textRule r
  | .edition e => textEdition e
  | .clock m previous => [number m, match previous with | .unset => hyphen | .running p => number p]
  | .lineStatus r => textLine r

/-- 11.3: the fields of a notice in text form. -/
def textNotice : Notice → List Chars
  | .refiled h v w => [number (handleNumber h), number v, flagToken w]
  | .killed h w => [number (handleNumber h), flagToken w]
  | .broken h d => [number (handleNumber h), deskToken d]
  | .lost d hs => [number d.val, number hs.length, numberList (hs.map handleNumber)]
  | .warning name m h => [name, number m, number (handleNumber h)]
  | .closed name h => [name, number (handleNumber h)]
  | .reopened h => [number (handleNumber h)]
  | .restarted => []

/-- R183: a tag in two digits; of a packed request's tag above 99 the last two are written, the model's choice (log 48). -/
def tagToken (t : Nat) : Chars := [byte (0x30 + t / 10 % 10), byte (0x30 + t % 10)]

/-- R183: tokens with single spaces, and the carriage return after at most 200 characters (log 49). -/
def textFrame (tokens : List Chars) : Chars := (joinWith 0x20 tokens).take Config.textFrameSize ++ [0x0D]

/-! ### Composing -/

/-- R182: the kind code of a reply. -/
def replyKindCode (k : Option ReqKind) : Nat :=
  match k with
  | some k => kindCode k + 0x80
  | none => 0x80

/-- R183: the keyword of a reply; it is ERROR also where a frame of no request name is answered BUSY, the model's choice (log
58). -/
def replyKeyword : Option ReqKind → Chars
  | some k => kindName k
  | none => word "ERROR"

/-- R182, R184: the characters of a frame in packed form. -/
def composePacked : TxContent → Chars
  | .reply r => packedFrame (be1 (replyKindCode r.kind) ++ be1 r.tag ++ be1 (codeName r.code).1 ++ packedBody r.body)
  | .notice dropped n => packedFrame (be1 (noticeCode n).1 ++ be1 0 ++ be1 (flagCode dropped) ++ packedNotice n)

/-- R183, R184: the characters of a frame in text form. -/
def composeText : TxContent → Chars
  | .reply r => textFrame ([tagToken r.tag, replyKeyword r.kind, word (codeName r.code).2] ++ textBody r.body)
  | .notice dropped n => textFrame ([tagToken 0, word (noticeCode n).2, flagToken dropped] ++ textNotice n)

/-- R164, R168: a frame as it is sent: in the line's form, text while the line is not judged PACKED, and after the
address character of its desk's drop on a 9M line. -/
def compose (l : Line) (f : TxFrame) : List OutChar :=
  let body := match l.judgement with
    | .packed => composePacked f.content
    | .text | .unjudged | .disabled => composeText f.content
  (if l.format = .f9M then [⟨byte (dropOf f.desk), true⟩] else []) ++ body.map fun b => ⟨b, false⟩

/-! ### Reading a packed request -/

/-- R184: a slug or name of a count and its characters; a count that is too great gives no name (log 15). -/
def countedName (size : Nat) (bs : Chars) : Chars :=
  if byteAt bs 0 ≤ size then (bs.drop 1).take (byteAt bs 0) else []

/-- 11.3: the basket list of an EDITION, or one that R91 refuses; the bytes past the counted baskets are not looked at, the
model's choice (log 15). -/
def countedBaskets (bs : Chars) : List Nat :=
  if byteAt bs 0 ≤ 12 then ((bs.drop 1).take (byteAt bs 0)).map BitVec.toNat else []

/-- SET by its item's number: CLASS, LINE_ENABLE and DRIVE_ENABLE are rows of their own. -/
def setRequest (item qualifier value : Nat) : Request :=
  match item with
  | 1 => .setLineEnable qualifier value
  | 8 => .setDriveEnable qualifier value
  | 13 => .setClass (qualifier / 16) (qualifier % 16) value
  | _ => .set item qualifier value

/-- R182, 11.3: the request of a kind and its field bytes. -/
def readFields (k : ReqKind) (bs : Chars) : Request :=
  let n := bs.length
  match k with
  | .list => if n = 3 then .list (byteAt bs 0) (if byteAt bs 1 = 0xFF then .all else .only (byteAt bs 1)) (byteAt bs 2)
      else .malformed k
  | .openStory =>
    if n = 15 then
      match byteAt bs 14 with
      | 0 => .openRead (byteAt bs 0) (countedName 12 (bs.drop 1))
      | 1 => .openEdit (byteAt bs 0) (countedName 12 (bs.drop 1))
      | _ => .malformed k
    else .malformed k
  | .read =>
    if n = 2 then .read (byteAt bs 0) (byteAt bs 1) none
    else if n = 4 then .read (byteAt bs 0) (byteAt bs 1) (some (num2 bs 2))
    else .malformed k
  | .write => if 4 ≤ n ∧ n ≤ 195 then .write (byteAt bs 0) (num2 bs 1) (bs.drop 3) else .malformed k
  | .file => if n = 1 then .file (byteAt bs 0) else .malformed k
  | .discard => if n = 1 then .discard (byteAt bs 0) else .malformed k
  | .close => if n = 1 then .close (byteAt bs 0) else .malformed k
  | .create => if n = 15 then .create (byteAt bs 0) (countedName 12 (bs.drop 1)) (byteAt bs 14) else .malformed k
  | .kill => if n = 14 then .kill (byteAt bs 0) (countedName 12 (bs.drop 1)) else .malformed k
  | .breakIt => if n = 14 then .breakCheckOut (byteAt bs 0) (countedName 12 (bs.drop 1)) else .malformed k
  | .status => if n = 1 then .status (byteAt bs 0) else .malformed k
  | .cancel => .cancel
  | .format =>
    if n = 14 then .format (byteAt bs 0) (countedName 8 (bs.drop 1)) (num3 bs 10) (byteAt bs 13) else .malformed k
  | .remount => if n = 1 then .remount (byteAt bs 0) else .malformed k
  | .set => if n = 4 then setRequest (byteAt bs 0) (byteAt bs 1) (num2 bs 2) else .malformed k
  | .query => if n = 2 then .query (byteAt bs 0) (byteAt bs 1) else .malformed k
  | .rule =>
    if n = 1 then .ruleRead (byteAt bs 0)
    else if n = 7 then
      .ruleWrite (byteAt bs 0) ⟨byteAt bs 1, byteAt bs 2, byteAt bs 3, byteAt bs 4, byteAt bs 5, byteAt bs 6⟩
    else .malformed k
  | .edition =>
    if n = 1 then .editionRead (byteAt bs 0)
    else if n = 29 then
      .editionWrite (byteAt bs 0)
        ⟨countedName 8 (bs.drop 1), byteAt bs 10, num2 bs 11, num2 bs 13, byteAt bs 15, countedBaskets (bs.drop 16)⟩
    else .malformed k
  | .clock => if n = 2 then .clock (num2 bs 0) else .malformed k
  | .lineStatus => if n = 1 then .lineStatus (byteAt bs 0) else .malformed k
  | .restart => if n = 0 then .restart else .malformed k

/-- R182: a packed frame from the lead byte through the check byte: its kind, its tag and its fields. -/
def readPacked (desk : DeskNo) (bs : Chars) : Frame :=
  let fields := (bs.drop 4).dropLast
  { env := { desk, tag := byteAt bs 3, form := .packed },
    req := match kindOfCode (byteAt bs 2) with
      | some k => readFields k fields
      | none => .unknown (byteAt bs 2) }

/-- R165: the bytes from the length through the check byte sum to a multiple of 256. -/
def packedCheck (bs : Chars) : Bool := byteSum (bs.drop 1) % 256 == 0

/-! ### Reading a text request -/

/-- A run cut at each separator. -/
def splitAt' (sep : Byte) : Chars → List Chars
  | [] => [[]]
  | c :: cs =>
    if c = sep then [] :: splitAt' sep cs
    else match splitAt' sep cs with
      | [] => [[c]]
      | t :: ts => (c :: t) :: ts

/-- The value of a decimal digit. -/
def digit (c : Byte) : Option Nat := if 0x30 ≤ c.toNat ∧ c.toNat ≤ 0x39 then some (c.toNat - 0x30) else none

/-- The number of digits read so far and the rest. -/
def digitsFrom (acc : Nat) : Chars → Option Nat
  | [] => some acc
  | c :: cs =>
    match digit c with
    | some v => digitsFrom (acc * 10 + v) cs
    | none => none

/-- R183: decimal digits, no leading zeros beyond a single 0. -/
def readNumber : Chars → Option Nat
  | [] => none
  | [c] => digit c
  | c :: cs => if c = 0x30 then none else digitsFrom 0 (c :: cs)

/-- R183: a flag, 1 or 0. -/
def readFlag (t : Chars) : Option Nat :=
  match readNumber t with
  | some 0 => some 0
  | some 1 => some 1
  | _ => none

/-- R183: numbers joined by commas. -/
def readNumbers (t : Chars) : Option (List Nat) := (splitAt' 0x2C t).mapM readNumber

/-- R183: the value of a hexadecimal digit in capitals. -/
def readHexDigit (c : Byte) : Option Nat :=
  match digit c with
  | some v => some v
  | none => if 0x41 ≤ c.toNat ∧ c.toNat ≤ 0x46 then some (c.toNat - 0x41 + 10) else none

/-- R183: pairs of hexadecimal digits. -/
def readHex : Chars → Option Chars
  | [] => some []
  | [_] => none
  | a :: b :: rest =>
    match readHexDigit a, readHexDigit b, readHex rest with
    | some x, some y, some more => some (byte (x * 16 + y) :: more)
    | _, _, _ => none

/-- R183: a class by its name. -/
def readCls (t : Chars) : Option Cls := [Cls.reporter, .copy, .slot, .supervisor].find? fun c => clsName c == t

/-- R183: the bits of a list of class names, or a hyphen; a class named twice is in the set once, the model's choice where R83
is silent (log 52). -/
def readClassSet (t : Chars) : Option Nat :=
  if t = hyphen then some 0
  else match (splitAt' 0x2C t).mapM readCls with
    | some cs => some (classSetCode ⟨cs.contains .reporter, cs.contains .copy, cs.contains .slot, cs.contains .supervisor⟩)
    | none => none

/-- R183: a grant by its name. -/
def readGrant (t : Chars) : Option Nat :=
  ([Grant.none, .read, .readWrite, .deposit].find? fun g => grantName g == t).map grantCode

/-- R183: a desk as line.drop, as the desk byte of R184. -/
def readDeskByte (t : Chars) : Option Nat :=
  match splitAt' 0x2E t with
  | [l, d] =>
    match readNumber l, readNumber d with
    | some l, some d => if d < 16 then some (l * 16 + d) else some (l * 16)
    | _, _ => none
  | _ => none

/-- R176, 11.3: the items with their names and numbers. -/
def itemNames : List (Chars × Nat) :=
  [(word "LINE_ENABLE", 1), (word "LINE_FORMAT", 2), (word "LINE_GENERATOR", 3), (word "LINE_DROPS", 4),
   (word "ANSWER_WINDOW", 5), (word "RATE", 6), (word "POLL_PAUSE", 7), (word "DRIVE_ENABLE", 8), (word "STEP_RATE", 9),
   (word "HEAD_UNLOAD", 10), (word "RETRY_LIMIT", 11), (word "WRITE_VERIFY", 12), (word "CLASS", 13),
   (word "MISS_THRESHOLD", 14)]

/-- R183: an item by its name. -/
def readItem (t : Chars) : Option Nat := (itemNames.find? fun e => e.1 == t).map (·.2)

/-- R176: whether an item has a qualifier. -/
def itemQualified (item : Nat) : Bool := (1 ≤ item && item ≤ 6) || item == 8 || item == 13

/-- R183: a qualifier token of an item. -/
def readQualifier (item : Nat) (t : Chars) : Option Nat :=
  match item with
  | 6 => if t = word "P" then some 0 else if t = word "Q" then some 1 else none
  | 13 => readDeskByte t
  | _ => readNumber t

/-- R183: a SET value token of an item, as the packed value of 11.3; a value that R177 refuses is 65535. -/
def readValue (item : Nat) (t : Chars) : Option Nat :=
  match item with
  | 1 | 8 | 12 => readFlag t
  | 2 => ([LineFormat.f8N, .f7E, .f9M].find? fun f => formatName f == t).map formatCode
  | 3 => if t = word "P" then some 0 else if t = word "Q" then some 1 else none
  | 4 => (readNumbers t).map fun ds =>
      if distinct ds && ds.all (fun d => 1 ≤ d && d ≤ 8) then dropMask ds else 65535
  | 6 => (readNumber t).map fun n => if n % 100 = 0 then n / 100 else 65535
  | 13 => (readCls t).map clsCode
  | _ => readNumber t

/-- R183: the tokens after the keyword as the fields of a kind. -/
def readTokens (k : ReqKind) (ts : List Chars) : Option Request :=
  match k, ts with
  | .list, [d, b, s] => do
    let d ← readNumber d
    let s ← readNumber s
    if b = word "ALL" then some (.list d .all s) else (readNumber b).map fun b => .list d (.only b) s
  | .openStory, [d, g, m] => do
    let d ← readNumber d
    if m = word "READ" then some (.openRead d g) else if m = word "EDIT" then some (.openEdit d g) else none
  | .read, [h, c] => do some (.read (← readNumber h) (← readNumber c) none)
  | .read, [h, c, o] => do some (.read (← readNumber h) (← readNumber c) (some (← readNumber o)))
  | .write, [h, o, x] => do some (.write (← readNumber h) (← readNumber o) (← readHex x))
  | .file, [h] => do some (.file (← readNumber h))
  | .discard, [h] => do some (.discard (← readNumber h))
  | .close, [h] => do some (.close (← readNumber h))
  | .create, [d, g, b] => do some (.create (← readNumber d) g (← readNumber b))
  | .kill, [d, g] => do some (.kill (← readNumber d) g)
  | .breakIt, [d, g] => do some (.breakCheckOut (← readNumber d) g)
  | .status, [d] => do some (.status (← readNumber d))
  | .cancel, _ => some .cancel
  | .format, [d, n, s, k] => do some (.format (← readNumber d) n (← readNumber s) (← readNumber k))
  | .remount, [d] => do some (.remount (← readNumber d))
  | .set, [i, v] => do
    let item ← readItem i
    if itemQualified item then none else some (setRequest item 0 (← readValue item v))
  | .set, [i, q, v] => do
    let item ← readItem i
    if itemQualified item then some (setRequest item (← readQualifier item q) (← readValue item v)) else none
  | .query, [i] => do
    let item ← readItem i
    if itemQualified item then none else some (.query item 0)
  | .query, [i, q] => do
    let item ← readItem i
    if itemQualified item then some (.query item (← readQualifier item q)) else none
  | .rule, [i] => do some (.ruleRead (← readNumber i))
  | .rule, [i, e, l, h, c, s, g] => do
    some (.ruleWrite (← readNumber i)
      ⟨← readFlag e, ← readNumber l, ← readNumber h, ← readFlag c, ← readClassSet s, ← readGrant g⟩)
  | .edition, [i] => do some (.editionRead (← readNumber i))
  | .edition, [i, n, e, c, r, l, b] => do
    some (.editionWrite (← readNumber i)
      ⟨n, ← readFlag e, ← readNumber c, ← readNumber r, ← readNumber l, ← readNumbers b⟩)
  | .clock, [m] => do some (.clock (← readNumber m))
  | .lineStatus, [l] => do some (.lineStatus (← readNumber l))
  | .restart, [] => some .restart
  | _, _ => none

/-- R183: the request of a keyword and its tokens. -/
def readKeyword (keyword : Chars) (ts : List Chars) : Request :=
  match kindOfName keyword with
  | some k => (readTokens k ts).getD (.malformed k)
  | none => .unknown 0

/-- R183: a text frame without its carriage return: two tag digits, a space, the keyword and its fields. One whose two tag
digits no space follows has no keyword, the model's choice (log 59). -/
def readText (desk : DeskNo) (cs : Chars) : Frame :=
  match cs with
  | a :: b :: rest =>
    match digit a, digit b with
    | some x, some y =>
      { env := { desk, tag := x * 10 + y, form := .text },
        req := match splitAt' 0x20 rest with
          | [] :: keyword :: ts => readKeyword keyword ts
          | _ => .unknown 0 }
    | _, _ => { env := { desk, tag := 0, form := .text }, req := .unknown 0 }
  | _ => { env := { desk, tag := 0, form := .text }, req := .unknown 0 }

end Sys2Proof.Machine
end

