-- ==== Sys2Proof/Machine/Ops.lean ====
section
/-! DEFINITION. The named operations over the tables of the part: reading and changing one entry, producing a reply or a
notice, and the queues of a drive. -/

namespace Sys2Proof.Machine

open Sys2Proof

/-! ### One entry of a table -/

/-- The desk record of a desk. -/
def Work.desk (w : Work) (d : DeskNo) : Desk := w.desks[d]
/-- One desk record changed. -/
def Work.updDesk (w : Work) (d : DeskNo) (f : Desk → Desk) : Work := { w with desks := w.desks.set d (f w.desks[d]) }
/-- One line. -/
def Work.line (w : Work) (l : LineId) : Line := w.lines[l]
/-- One line changed. -/
def Work.updLine (w : Work) (l : LineId) (f : Line → Line) : Work := { w with lines := w.lines.set l (f w.lines[l]) }
/-- One drive. -/
def Work.drive (w : Work) (d : DriveId) : Drive := w.drives[d]
/-- One drive changed. -/
def Work.updDrive (w : Work) (d : DriveId) (f : Drive → Drive) : Work := { w with drives := w.drives.set d (f w.drives[d]) }
/-- One buffer. -/
def Work.buffer (w : Work) (b : BufId) : Buffer := w.buffers[b]
/-- One buffer changed. -/
def Work.updBuffer (w : Work) (b : BufId) (f : Buffer → Buffer) : Work :=
  { w with buffers := w.buffers.set b (f w.buffers[b]) }
/-- One handle entry. -/
def Work.handle (w : Work) (h : HandleIx) : Option Handle := w.handles[h]
/-- One handle entry replaced. -/
def Work.setHandle (w : Work) (h : HandleIx) (x : Option Handle) : Work := { w with handles := w.handles.set h x }
/-- One handle entry changed, if it is in use. -/
def Work.updHandle (w : Work) (h : HandleIx) (f : Handle → Handle) : Work := w.setHandle h ((w.handle h).map f)
/-- One queue entry. -/
def Work.entry (w : Work) (q : QSlot) : Option Entry := w.queue[q]
/-- One queue entry replaced. -/
def Work.setEntry (w : Work) (q : QSlot) (x : Option Entry) : Work := { w with queue := w.queue.set q x }
/-- One retired record. -/
def Work.record (w : Work) (r : RecIx) : Option Retired := w.retired[r]
/-- One retired record replaced. -/
def Work.setRecord (w : Work) (r : RecIx) (x : Option Retired) : Work := { w with retired := w.retired.set r x }

/-- Every element of an index type, in ascending order. -/
abbrev allDesks : List DeskNo := List.finRange 32
/-- The lines in ascending order. -/
abbrev allLines : List LineId := List.finRange 4
/-- The drives in ascending order. -/
abbrev allDrives : List DriveId := List.finRange 4
/-- The buffers in ascending order. -/
abbrev allBuffers : List BufId := List.finRange 6
/-- The handles in ascending order. -/
abbrev allHandles : List HandleIx := List.finRange 48
/-- The queue slots in ascending order. -/
abbrev allEntries : List QSlot := List.finRange 24
/-- The retired records in ascending order. -/
abbrev allRecords : List RecIx := List.finRange 16
/-- R124: the sectors of a track-side in ascending order. -/
abbrev allSectors : List (Fin 15) := List.finRange 15

/-- A change made for each element of a list in turn. -/
def Work.each (w : Work) (xs : List α) (f : α → Work → Work) : Work := xs.foldl (fun w x => f x w) w

/-- The volume of a drive changed, where it exists. -/
def Work.updMedia (w : Work) (d : DriveId) (f : Media → Media) : Work :=
  w.updDrive d fun dr => { dr with media := dr.media.map f }

/-- The catalogue slot that a handle names. -/
def Work.slotOf (w : Work) (h : Handle) : Slot :=
  match (w.drive h.drive).media with
  | some m => m.catalogue[h.slot]
  | none => .empty

/-! ### Replies and notices -/

/-- R168: a frame enters a transmit queue; into an empty one, its sending begins. A frame that finds twelve there waits for
room, in order (log 11). -/
def Line.push (l : Line) (f : TxFrame) : Line :=
  if l.tx.length < Config.txQueueSize then
    { l with tx := l.tx ++ [f], sending := if l.tx = [] then compose l f else l.sending }
  else { l with txWait := l.txWait ++ [f] }

/-- R168: the frames of a line that have not been sent, those that wait for room included (log 11). -/
def Line.frames (l : Line) : List TxFrame := l.tx ++ l.txWait

/-- R168: the frame at the head of a transmit queue has been sent and leaves it; a frame that waited for room takes the
place freed (log 11), and the sending of the next one begins. -/
def Line.pop (l : Line) : Line :=
  let tx := l.tx.drop 1 ++ l.txWait.take 1
  { l with tx, txWait := l.txWait.drop 1, sending := (tx.head?.map (compose l)).getD [] }

/-- R118: a reply enters the transmit queue of its line if the desk is PRESENT, and is discarded otherwise. -/
def Work.sendReply (w : Work) (desk : DeskNo) (r : Reply) : Work :=
  if (w.desk desk).presence = .present then w.updLine (lineOf desk) (·.push ⟨desk, .reply r⟩) else w

/-- R107, R118: a reply that ends the desk's outstanding request. -/
def Work.produceReply (w : Work) (desk : DeskNo) (r : Reply) : Work :=
  (w.updDesk desk fun k => { k with outstanding := none }).sendReply desk r

/-- R184: the fields of a refusal: none, but a LIST frame is final and empty (log 13). -/
def refusalBody (k : Option ReqKind) : ReplyBody := if k = some .list then .list true [] else .none

/-- R118: the refusal of a request. -/
def Work.refuse (w : Work) (env : Envelope) (k : ReqKind) (code : ResultCode) : Work :=
  w.produceReply env.desk ⟨some k, env.tag, code, refusalBody (some k)⟩

/-- R118: the OK reply of a request. -/
def Work.replyOk (w : Work) (env : Envelope) (k : ReqKind) (body : ReplyBody) : Work :=
  w.produceReply env.desk ⟨some k, env.tag, .ok, body⟩

/-- R119: a notice is appended to its desk's list; from a full list the oldest is lost and the flag set. -/
def Desk.addNotice (k : Desk) (n : Notice) : Desk :=
  if k.notices.length < Config.noticeListSize then { k with notices := k.notices ++ [n] }
  else { k with notices := k.notices.drop 1 ++ [n], noticesDropped := true }

/-- R119. -/
def Work.notify (w : Work) (desk : DeskNo) (n : Notice) : Work := w.updDesk desk (·.addNotice n)

/-- R44: the LIST streams of a drive whose volume is given up are marked VOLUME_GONE, unless they are marked. -/
def Work.endStreams (w : Work) (d : DriveId) : Work :=
  w.each allDesks fun k w => w.updDesk k fun desk =>
    { desk with outstanding := desk.outstanding.map fun o =>
        { o with stream := o.stream.map fun s =>
            if s.drive = d ∧ s.mark = .none then { s with mark := .volumeGone } else s } }

/-! ### Handles -/

/-- R48: whether a handle is a check-out. -/
def Handle.isCheckOut (h : Handle) : Bool := h.mode == .edit && (h.state == .live || h.state == .frozen)

/-- R46: whether a handle is DEFUNCT. -/
def Handle.isDefunct (h : Handle) : Bool :=
  match h.state with
  | .defunct _ => true
  | .live | .frozen => false

/-- R48: the check-out of a story. -/
def Work.checkOutOf (w : Work) (d : DriveId) (slot : CatSlot) : Option HandleIx :=
  allHandles.find? fun i =>
    match w.handle i with
    | some h => h.isCheckOut && h.drive == d && h.slot == slot
    | none => false

/-- R48: the holder of a story. -/
def Work.holderOf (w : Work) (d : DriveId) (slot : CatSlot) : Option DeskNo :=
  (w.checkOutOf d slot).bind fun i => (w.handle i).map (·.desk)

/-- R48: the check-outs on a drive. -/
def Work.checkOuts (w : Work) (d : DriveId) : Nat :=
  allHandles.countP fun i =>
    match w.handle i with
    | some h => h.isCheckOut && h.drive == d
    | none => false

/-- R46: the lowest number not in use, if a desk may have one more handle. -/
def Work.freeHandle (w : Work) (desk : DeskNo) : Option HandleIx :=
  if (allHandles.countP fun i => (w.handle i).any (·.desk == desk)) < 2 then allHandles.find? fun i => (w.handle i).isNone
  else none

/-- R66, R41: the readers of the version that a slot holds: READ handles, OPEN, with pin source CATALOGUE. -/
def Work.readersOf (w : Work) (d : DriveId) (slot : CatSlot) : List HandleIx :=
  allHandles.filter fun i =>
    match w.handle i with
    | some h => h.mode == .read && h.state == .live && h.drive == d && h.slot == slot
        && h.pin.any (·.source == .catalogue)
    | none => false

/-- R54: the length and extent list of the version that a handle reads. -/
def Work.versionOf (w : Work) (h : Handle) : Nat × List Extent :=
  let slot := match w.slotOf h with
    | .filed st _ => (st.length, st.extents)
    | _ => (0, [])
  match h.mode, h.pin, h.base with
  | .read, some ⟨_, .catalogue⟩, _ => slot
  | .read, some ⟨_, .record r⟩, _ => match w.record r with
    | some x => (x.length, x.extents)
    | none => (0, [])
  | .read, some ⟨_, .empty⟩, _ => (0, [])
  | .read, none, _ => (0, [])
  | .edit, _, some _ => slot
  | .edit, _, none => (0, [])

/-- R73: the result code of a cause. -/
def causeResult : Cause → ResultCode
  | .broken => .broken
  | .lost => .lost
  | .superseded => .superseded

/-- R47: a handle made DEFUNCT has no pin and no staging. -/
def Handle.makeDefunct (h : Handle) (c : Cause) : Handle := { h with state := .defunct c, pin := none, staging := none }

/-! ### The request queue -/

/-- The request kind of a queued request. -/
def jobKind : Job → ReqKind
  | .read _ _ _ => .read
  | .write _ _ _ => .write
  | .file _ => .file
  | .kill _ => .kill
  | .format _ _ _ => .format
  | .remount => .remount

/-- The handle that a queued request names. -/
def jobHandle : Job → Option HandleIx
  | .read h _ _ => some h
  | .write h _ _ => some h
  | .file h => some h
  | .kill _ => none
  | .format _ _ _ => none
  | .remount => none

/-- R110: the ACTIVE request of a drive. -/
def Work.activeOf (w : Work) (d : DriveId) : Option (QSlot × Entry × Active) :=
  allEntries.findSome? fun q =>
    match w.entry q with
    | some e => match e.active with
      | some a => if e.drive = d then some (q, e, a) else none
      | none => none
    | none => none

/-- The queued request that names a handle. -/
def Work.entryNaming (w : Work) (h : HandleIx) : Option (QSlot × Entry) :=
  allEntries.findSome? fun q =>
    match w.entry q with
    | some e => if jobHandle e.job = some h then some (q, e) else none
    | none => none

/-- The place of an ACTIVE request changed. -/
def Work.setPlace (w : Work) (q : QSlot) (p : Place) : Work :=
  w.setEntry q ((w.entry q).map fun e => { e with active := e.active.map fun a => { a with place := p } })

/-- The progress of an ACTIVE request changed. -/
def Work.setProgress (w : Work) (q : QSlot) (p : Progress) : Work :=
  w.setEntry q ((w.entry q).map fun e => { e with active := e.active.map fun a => { a with progress := p } })

/-! ### The queues of a drive -/

/-- R145, R147: the queue takes operations from the append wait list while it holds fewer than 16. -/
def Drive.refill (dr : Drive) : Drive :=
  { dr with ops := dr.ops ++ dr.appendWait.take (Config.opQueueSize - dr.ops.length),
            appendWait := dr.appendWait.drop (Config.opQueueSize - dr.ops.length) }

/-- R160: a pending unload is no longer pending: it is abandoned or done. -/
def Drive.dropUnload (dr : Drive) : Drive := { dr with unloadPending := false, idleRelocs := [] }

/-- R147, R160: an operation is appended at the tail, or set aside when the queue is full; the head-unload timer stops,
and the unload is abandoned unless the operation is the idle flush's own. A label write that a relocation in the idle flush
queues keeps it too (Work.keepingUnload). -/
def Drive.append (dr : Drive) (op : Op) : Drive :=
  let own := op.origin == .idleFlush
  let dr := { dr with unloadTimer := none, unloadPending := dr.unloadPending && own,
                      idleRelocs := if own then dr.idleRelocs else [] }
  if dr.ops.length < Config.opQueueSize then { dr with ops := dr.ops ++ [op] }
  else { dr with appendWait := dr.appendWait ++ [op] }

/-- An operation is queued on a drive. -/
def Work.append (w : Work) (d : DriveId) (op : Op) : Work := w.updDrive d (·.append op)

/-- R145, R147: the operations queued on a drive, set aside ones included. -/
def Drive.queued (dr : Drive) : List Op := dr.ops ++ dr.appendWait

/-- R115: the number of a request's own operations, on any drive. -/
def Work.ownOps (w : Work) (q : QSlot) : Nat :=
  (allDrives.map fun d => (w.drive d).queued.countP fun op => op.origin == .request q).foldr (· + ·) 0

/-- R26: a housekeeping label write is queued, unless one is queued that has not been granted the channel. -/
def Work.queueLabel (w : Work) (d : DriveId) : Work :=
  if (w.drive d).queued.any fun op => op.kind == .labelWrite && !op.transferring then w
  else w.append d ⟨.labelWrite, 0, 0, none, .none, .labelWrite, false⟩

/-- R160: a change in which a relocation left by the idle flush under way queues its label write; the unload that was
pending stays so. -/
def Work.keepingUnload (w : Work) (d : DriveId) (keeps : Bool) (f : Work → Work) : Work :=
  if keeps && (w.drive d).unloadPending then
    (f w).updDrive d fun dr => { dr with unloadPending := true, idleRelocs := (w.drive d).idleRelocs }
  else f w

/-- R150: the channel is released if a drive holds it. -/
def Work.release (w : Work) (d : DriveId) : Work := { w with owner := if w.owner = some d then none else w.owner }

end Sys2Proof.Machine
end

