-- ==== Sys2Proof/Machine/Pool.lean ====
section
/-! DEFINITION. The Track Buffer Pool: buffers and sectors (R124, R125), the order of use (R126), holding (R127),
obtaining a buffer (R128) and dropping a sector (R135). -/

namespace Sys2Proof.Machine

open Sys2Proof

/-! ### Sectors and the order -/

/-- Whether a sector is DIRTY. -/
def Cell.isDirty : Cell → Bool
  | .dirty _ => true
  | .absent | .valid _ => false

/-- The content of a sector that is VALID or DIRTY. -/
def Cell.content? : Cell → Option Chars
  | .absent => none
  | .valid c => some c
  | .dirty c => some c

/-- The content of a VALID sector. -/
def Cell.valid? : Cell → Option Chars
  | .valid c => some c
  | .absent | .dirty _ => none

/-- The DIRTY sectors of a buffer, ascending. -/
def Buffer.dirtySet (bu : Buffer) : List (Fin 15) := allSectors.filter fun k => (bu.sectors[k]).cell.isDirty

/-- Whether every sector is ABSENT. -/
def Buffer.bare (bu : Buffer) : Bool := allSectors.all fun k => (bu.sectors[k]).cell == .absent

/-- A buffer with one sector replaced. -/
def Buffer.put (bu : Buffer) (k : Fin 15) (s : Sector) : Buffer := { bu with sectors := bu.sectors.set k s }

/-- R126: a buffer moves to the most recent end. -/
def Work.touchRecent (w : Work) (b : BufId) : Work := { w with lru := w.lru.erase b ++ [b] }

/-- R128: a fill or a flush has ended, a buffer was let go or became FREE: the pool is to take its wait list, if anyone is
on it (log 40). -/
def Work.poolEvent (w : Work) : Work := { w with poolDue := w.poolDue || w.waitList != [] }

/-- R124, R126: a buffer becomes FREE and moves to the least recent end. -/
def Work.freeBuffer (w : Work) (b : BufId) : Work :=
  { w with buffers := w.buffers.set b Buffer.powerOn, lru := b :: w.lru.erase b }.poolEvent

/-- R124: a buffer that is READY, not held and bare becomes FREE. -/
def Work.tidy (w : Work) (b : BufId) : Work :=
  if (w.buffer b).state = .ready ∧ (w.buffer b).heldBy = none ∧ (w.buffer b).bare = true then w.freeBuffer b else w

/-- R128 step 1: the buffer that holds a track-side. -/
def Work.bufferOf (w : Work) (key : TrackKey) : Option BufId :=
  allBuffers.find? fun b => (w.buffer b).state != .free && (w.buffer b).key == some key

/-- The sector of a block in its buffer. -/
def Work.sectorOf (w : Work) (d : DriveId) (sides block : Nat) : Option (BufId × Sector) :=
  (w.bufferOf (keyOf d sides block)).map fun b => (b, (w.buffer b).sectors[blockSector block])

/-- The sides of a drive's volume (R1). -/
def Work.sides (w : Work) (d : DriveId) : Nat :=
  match (w.drive d).media with
  | some m => m.label.sides
  | none => 1

/-- R132: whether a sector is in the set that a WRITE_SECTORS of its buffer took and has not yet ended with. -/
def Work.inFlight (w : Work) (b : BufId) (k : Fin 15) : Bool :=
  match (w.buffer b).key with
  | some key => match (w.drive key.drive).ops with
    | op :: _ => op.kind == .writeSectors && op.transferring && op.buffer == some b
        && (w.drive key.drive).attempt.taken.any (·.1 == k)
    | [] => false
  | none => false

/-- R125, R132: content put into a sector, which becomes DIRTY; its mark is set when the sector is in flight. -/
def Work.soil (w : Work) (b : BufId) (k : Fin 15) (content : Chars) : Work :=
  w.updBuffer b fun bu => bu.put k ⟨.dirty content, (bu.sectors[k]).mark || w.inFlight b k⟩

/-- R135, R136: a sector is given up, its relocations pending list being as left; a FLUSHING buffer whose list is emptied
by it is READY, and its flush has ended with that. -/
def Work.giveUpSector (w : Work) (b : BufId) (k : Fin 15) (left : List (Fin 15)) : Work :=
  let emptied := (w.buffer b).pending != [] && left == []
  let w := w.updBuffer b fun bu =>
    { bu.put k ⟨.absent, false⟩ with pending := left, state := if emptied then .ready else bu.state }
  if emptied then w.poolEvent else w

/-- R135: a DIRTY sector is dropped and leaves the relocations pending list. -/
def Work.dropSector (w : Work) (b : BufId) (k : Fin 15) : Work :=
  (w.giveUpSector b k ((w.buffer b).pending.erase k)).tidy b

/-! ### Holding -/

/-- R127: a party takes hold of a buffer. -/
def Work.hold (w : Work) (b : BufId) (h : Holder) : Work :=
  (w.updBuffer b fun bu => { bu with heldBy := some h }).touchRecent b

/-- R127: a party lets go of what it holds; of several buffers in ascending number, the model's choice (log 45). -/
def Work.letGo (w : Work) (h : Holder) : Work :=
  w.each allBuffers fun b w =>
    if (w.buffer b).heldBy = some h then ((w.updBuffer b fun bu => { bu with heldBy := none }).poolEvent).tidy b else w

/-! ### Obtaining -/

/-- R128: a buffer is given a new track-side. -/
def Work.give (w : Work) (b : BufId) (key : TrackKey) : Work :=
  w.updBuffer b fun _ => { Buffer.powerOn with state := .ready, key := some key }

/-- R133: a WRITE_SECTORS of a buffer is queued, and the buffer is FLUSHING. -/
def Work.flush (w : Work) (b : BufId) (origin : Origin) : Work :=
  match (w.buffer b).key with
  | some key =>
    (w.updBuffer b fun bu => { bu with state := .flushing }).append key.drive
      ⟨.writeSectors, key.track, key.side, some b, .none, origin, false⟩
  | none => w

/-- R129: a READ_TRACK into a buffer is queued, and the buffer is FILLING. -/
def Work.fill (w : Work) (b : BufId) (origin : Origin) : Work :=
  match (w.buffer b).key with
  | some key =>
    (w.updBuffer b fun bu => { bu with state := .filling }).append key.drive
      ⟨.readTrack, key.track, key.side, some b, .none, origin, false⟩
  | none => w

/-- R134: the origin of the eviction flush that a party starts. -/
def Party.origin : Party → Origin
  | .request q => .request q
  | .mount d => .mount d
  | .relocation b => .relocation b

/-- What R128 gives a party. -/
inductive Obtained where
  | got (b : BufId)
  | evicting
  | none
  deriving DecidableEq, Repr

/-- R128: the five steps by which a party obtains a buffer for a track-side. -/
def Work.obtain (w : Work) (p : Party) (key : TrackKey) : Work × Obtained :=
  match w.bufferOf key with
  | some b => (w, .got b)
  | none =>
    match w.lru.find? fun b => (w.buffer b).state == .free with
    | some b => (w.give b key, .got b)
    | none =>
      match w.lru.find? fun b => (w.buffer b).state == .ready && (w.buffer b).heldBy == none
          && (w.buffer b).dirtySet == [] && (w.buffer b).pending == [] with
      | some b => (w.give b key, .got b)
      | none =>
        match w.lru.find? fun b => (w.buffer b).state == .ready && (w.buffer b).heldBy == none with
        | some b => (w.flush b p.origin, .evicting)
        | none => (w, .none)

/-- Where a party that wants a buffer stands. -/
def Work.setAwait (w : Work) (p : Party) (a : RelocPlace) : Work :=
  match p with
  | .request q => w.setPlace q (match a with
    | .wanting => .run | .evicting => .evicting | .draining c => .draining c | .evicted => .evicted
    | .waiting => .waiting)
  | .mount d => w.updDrive d fun dr => { dr with mount := dr.mount.map fun m =>
      { m with place := match a with
        | .wanting => .wanting | .evicting => .evicting | .draining c => .draining c | .evicted => .evicted
        | .waiting => .waiting } }
  | .relocation b => w.updBuffer b fun bu => { bu with reloc := bu.reloc.map fun r => { r with place := a } }

/-- R128: a party leaves the wait list. -/
def Work.leaveWait (w : Work) (p : Party) : Work := { w with waitList := w.waitList.filter (· != p) }

/-- R128: a party joins the wait list, once; a list that was empty owes nothing to an earlier event. -/
def Work.joinWait (w : Work) (p : Party) : Work :=
  if w.waitList.contains p then w
  else { w with waitList := w.waitList ++ [p], poolDue := w.poolDue && w.waitList != [] }

/-- R134: the party whose eviction flush is the operation that ended goes to a place; any other origin stays. -/
def Work.sendEvictor (w : Work) (origin : Origin) (a : RelocPlace) : Work :=
  match origin with
  | .request q => match w.entry q with
    | some ⟨_, _, _, _, _, _, some x⟩ => if x.place = .evicting then w.setAwait (.request q) a else w
    | _ => w
  | .mount d => match (w.drive d).mount with
    | some m => if m.place = .evicting then w.setAwait (.mount d) a else w
    | none => w
  | .relocation b => match (w.buffer b).reloc with
    | some r => if r.place = .evicting then w.setAwait (.relocation b) a else w
    | none => w
  | .idleFlush | .labelWrite | .nobody => w

/-- R134: an eviction flush that has ended, or was removed, sends its party to obtain a buffer afresh, before the pool
takes the wait list. -/
def Work.wake (w : Work) (origin : Origin) : Work := w.sendEvictor origin .evicted

/-- R134, R136: an eviction flush whose WRITE_SECTORS left sectors of its buffer to relocate has its party wait until the
relocations are made, as the worked example of chapter 7 has it (log 56); one that left none has ended. -/
def Work.flushDone (w : Work) (b : BufId) (origin : Origin) : Work :=
  w.sendEvictor origin (if (w.buffer b).pending = [] then .evicted else .draining b)

/-- R134: whether the relocations that an eviction flush of a buffer left are made or given up. -/
def Work.drained (w : Work) (b : BufId) : Bool := (w.buffer b).pending == []

/-! ### Reading from the buffers -/

/-- R130: the pieces at the head of a list that lie on one track-side. -/
def sameSide (block : Nat) : List Piece → List Piece
  | [] => []
  | p :: ps => if p.block / 15 = block / 15 then p :: sameSide block ps else []

/-- R54, R130: the bytes of a piece, if its sector is VALID in a buffer. -/
def Work.validPiece (w : Work) (d : DriveId) (p : Piece) : Option Chars :=
  match w.sectorOf d (w.sides d) p.block with
  | some (_, s) => (s.cell.valid?).map fun c => slice c p.start p.len
  | none => none

/-- R130: the bytes of pieces, if every sector is VALID. -/
def Work.validPieces (w : Work) (d : DriveId) : List Piece → Option Chars
  | [] => some []
  | p :: ps =>
    match w.validPiece d p, w.validPieces d ps with
    | some a, some b => some (a ++ b)
    | _, _ => none

/-- R130, R126: each buffer that gave bytes moves to the most recent end. They move in byte order, so that of two buffers that
one READ answered at intake uses the one of the later track-side ends most recent: the model's choice (log 62). -/
def Work.touchPieces (w : Work) (d : DriveId) (ps : List Piece) : Work :=
  w.each ps fun p w =>
    match w.bufferOf (keyOf d (w.sides d) p.block) with
    | some b => w.touchRecent b
    | none => w

end Sys2Proof.Machine
end

