-- ==== Sys2Proof/Machine/Sequencer.lean ====
section
/-! DEFINITION. The drive sequencer: movements of the head (R142 to R144), the removal of operations (R149), the retry
decision (R156) and the head-unload timer (R160). -/

namespace Sys2Proof.Machine

open Sys2Proof

/-- R145: the current operation. -/
def Drive.current (dr : Drive) : Option Op := dr.ops.head?

/-- R146: the kinds that write. -/
def OpKind.writes : OpKind → Bool
  | .writeSectors | .catalogueWrite | .labelWrite | .formatTrack => true
  | .recalibrate | .readTrack => false

/-- R141: the states in which the head is loaded. -/
def Mech.headLoaded : Mech → Bool
  | .idle | .stepping | .settling | .waitChannel | .transferring | .recalibrating => true
  | .notReady | .unloaded | .loading | .faulted => false

/-! ### Movements -/

/-- R144: a recalibration begins. -/
def Drive.recalibrate (cfg : Cfg) (dr : Drive) : Drive :=
  { dr with mech := .recalibrating, inward := false, recalSteps := 0, moveTimer := some cfg.stepRate }

/-- R143: the drive settles. -/
def Drive.settleHead (dr : Drive) : Drive := { dr with mech := .settling, moveTimer := some Config.settleMs }

/-- R143: a seek begins: a recalibration from an unknown position, steps from another track, or none. -/
def Drive.seek (cfg : Cfg) (track : Nat) (dr : Drive) : Drive :=
  match dr.head with
  | none => dr.recalibrate cfg
  | some t =>
    if t = track then { dr with mech := .waitChannel, moveTimer := none }
    else { dr with mech := .stepping, inward := decide (t < track), moveTimer := some cfg.stepRate }

/-- R143, R144, R148: the first movement of the current operation. -/
def Drive.firstMovement (cfg : Cfg) (dr : Drive) : Drive :=
  match dr.current with
  | some op => if op.kind = .recalibrate then dr.recalibrate cfg else dr.seek cfg op.track
  | none => { dr with mech := .idle, moveTimer := none }

/-- R142: the head is loaded for the current operation: the drive selects itself and asserts its head-load line. No rule
releases the select line (log 7). -/
def Drive.load (dr : Drive) : Drive :=
  { dr with mech := .loading, moveTimer := some Config.headLoadMs, selected := true, headLoad := true }

/-- R142, R148: the current operation begins. -/
def Drive.begin (cfg : Cfg) (dr : Drive) : Drive :=
  let dr := { dr with attempt := Attempt.none }
  if dr.mech = .unloaded then dr.load else dr.firstMovement cfg

/-- R149: a movement that went on for a removed operation has ended. -/
def Drive.stopRun (dr : Drive) : Drive := { dr with mech := .idle, moveTimer := none, runOn := false }

/-- R142: the 35 ms of a load end. -/
def Drive.loadEnd (cfg : Cfg) (dr : Drive) : Drive := if dr.runOn then dr.stopRun else dr.firstMovement cfg

/-- R143: one step in the direction of the direction line. -/
def Drive.stepHead (dr : Drive) : Drive :=
  { dr with head := dr.head.map fun t => if dr.inward then min 76 (t + 1) else t - 1 }

/-- R143, R149: a step interval ends with its step given. -/
def Drive.stepEnd (cfg : Cfg) (dr : Drive) : Drive :=
  let dr := dr.stepHead
  if dr.runOn then dr.settleHead
  else match dr.current, dr.head with
    | some op, some t => if t = op.track then dr.settleHead else { dr with moveTimer := some cfg.stepRate }
    | _, _ => dr.settleHead

/-- R160: the head is unloaded: the head-load line drops, and the head position is kept. -/
def Drive.unload (dr : Drive) : Drive := { dr.dropUnload with mech := .unloaded, headLoad := false }

/-! ### Removal -/

/-- R149: the current operation is removed: a movement goes on, a wait for the channel is withdrawn, and a transfer is
aborted. -/
def Drive.halt (dr : Drive) : Drive :=
  match dr.mech with
  | .loading | .stepping | .settling | .recalibrating => { dr with runOn := true }
  | .waitChannel | .transferring => { dr with mech := .idle, moveTimer := none }
  | .notReady | .unloaded | .idle | .faulted => dr

/-- R124: the buffer of an operation that was removed, or failed with the drive, is READY; with that its fill or flush has
ended for the pool's wait list too (R128), the model's choice (log 40). -/
def Work.settleBuffer (w : Work) (op : Op) : Work :=
  match op.buffer with
  | some b =>
    if (w.buffer b).state = .filling ∨ (w.buffer b).state = .flushing then
      ((w.updBuffer b fun bu => { bu with state := .ready }).poolEvent).tidy b
    else w
  | none => w

/-- The channel is released where the drive is aborted in its transfer (R150). -/
def Work.abort (w : Work) (d : DriveId) : Work :=
  if (w.drive d).mech = .transferring then w.release d else w

/-- R147, R149: the operations of a drive that satisfy a test are removed. Their buffers are settled in the order of the queue,
which is the order in which bare ones become FREE: the model's choice (log 45). -/
def Work.removeOps (w : Work) (d : DriveId) (p : Op → Bool) : Work :=
  let gone := (w.drive d).queued.filter p
  let w := if (w.drive d).current.any p then (w.abort d).updDrive d Drive.halt else w
  let w := w.updDrive d fun dr =>
    Drive.refill { dr with ops := dr.ops.filter (!p ·), appendWait := dr.appendWait.filter (!p ·) }
  w.each gone fun op w => (w.settleBuffer op).wake op.origin

/-- R117: the origin of operations that go on without it. -/
def Work.orphan (w : Work) (origin : Origin) : Work :=
  let f := fun op : Op => if op.origin = origin then { op with origin := .nobody } else op
  w.each allDrives fun d w => w.updDrive d fun dr => { dr with ops := dr.ops.map f, appendWait := dr.appendWait.map f }

/-- R123, R147, R148: a request's operations that are not transferring are removed, on every drive. -/
def Work.removeOwn (w : Work) (q : QSlot) : Work :=
  w.each allDrives fun d w => w.removeOps d fun op => op.origin == .request q && !op.transferring

/-- Whether an operation of a request is transferring (R123). -/
def Work.ownTransfer (w : Work) (q : QSlot) : Bool :=
  allDrives.any fun d => (w.drive d).queued.any fun op => op.origin == .request q && op.transferring

/-! ### Retries -/

/-- R156: what follows a failed attempt. -/
inductive Retry where
  | inPlace
  | afterRecalibration
  | ended
  deriving DecidableEq, Repr

/-- R156: the retry decision. -/
def retryOf (limit : Nat) (a : Attempt) (wrongTrack : Bool) : Retry :=
  if a.final then .ended
  else if a.retries < limit then (if wrongTrack then .afterRecalibration else .inPlace)
  else .afterRecalibration

/-- R161: the outcomes of an operation. -/
inductive OpOutcome where
  | completed
  | completedWithFailures
  | failedAtOnce (kind : FailureKind)
  deriving DecidableEq, Repr

/-- R161: the report of an operation that ended: its kind and origin, its outcome and its attempt record, from which the
sectors that succeeded and failed are read. -/
structure Report where
  op : Op
  outcome : OpOutcome
  attempt : Attempt
  deriving DecidableEq, Repr

/-- R152 to R155: the sectors that an operation is to read or write: a WRITE_SECTORS its set, a record write its one
sector. -/
def Report.targets (r : Report) : List (Fin 15) :=
  match r.op.kind, r.op.image with
  | .recalibrate, _ => []
  | .readTrack, _ | .formatTrack, _ => allSectors
  | .writeSectors, _ => r.attempt.taken.map (·.1)
  | .labelWrite, _ => [0]
  | .catalogueWrite, .entry c _ | .catalogueWrite, .empty c => [Fin.ofNat 15 (catalogueSector c)]
  | .catalogueWrite, .none => []

/-- R161: the sectors that succeeded. -/
def Report.succeeded (r : Report) : List (Fin 15) :=
  match r.outcome with
  | .failedAtOnce _ => []
  | .completed | .completedWithFailures => r.targets.filter fun k => !r.attempt.bad.contains k

/-- R157, R161: the sectors that failed with their last failure kinds; after a failure at once, every one. -/
def Report.failed (r : Report) : List (Fin 15 × FailureKind) :=
  match r.outcome with
  | .failedAtOnce kind => r.targets.map fun k => (k, kind)
  | .completed | .completedWithFailures => r.attempt.kinds.filter fun k => r.attempt.bad.contains k.1

/-- R161: the report of an operation that ran to its end. -/
def reportOf (op : Op) (a : Attempt) : Report :=
  ⟨op, if a.bad = [] then .completed else .completedWithFailures, a⟩

/-- R156: the attempt record after a failed attempt that is retried. -/
def Attempt.again (limit : Nat) (a : Attempt) : Attempt :=
  if a.retries < limit then { a with retries := a.retries + 1 } else { a with final := true }

/-- R156: the next attempt in place, or after a recalibration with the channel released; the head position is unknown
after WRONG_TRACK, also before the final attempt, the model's choice (log 60). None where the operation ends. -/
def Work.retry (cfg : Cfg) (w : Work) (d : DriveId) (wrongTrack : Bool) : Option Work :=
  let a := (w.drive d).attempt
  match retryOf cfg.retryLimit a wrongTrack with
  | .ended => none
  | .inPlace =>
    some (w.updDrive d fun dr => { dr with attempt := { a.again cfg.retryLimit with made := a.made + 1, pulses := 0 } })
  | .afterRecalibration =>
    some ((w.release d).updDrive d fun dr =>
      Drive.recalibrate cfg { dr with attempt := a.again cfg.retryLimit, head := if wrongTrack then none else dr.head })

end Sys2Proof.Machine
end

