-- ==== Sys2Proof/Machine/Requests.lean ====
section
/-! DEFINITION. How a queued request ends (R117, R118), the staging release (R68), a check-out made LOST (R73), a
WRITE set back (R60), and what becomes of a superseded version (R66, R41, R75). -/

namespace Sys2Proof.Machine

open Sys2Proof

/-! ### The end of a request -/

/-- R118: the reply to a queued request is produced and its entry leaves the queue. -/
def Work.closeEntry (w : Work) (q : QSlot) (code : ResultCode) (body : ReplyBody) : Work :=
  match w.entry q with
  | some e => (w.setEntry q none).produceReply e.desk ⟨some (jobKind e.job), e.tag, code, body⟩
  | none => w

/-- R40: the kill-pending mark of the drive's ACTIVE KILL is cleared. -/
def Work.clearKillMark (w : Work) (d : DriveId) (slug : Chars) : Work :=
  w.updMedia d fun m =>
    match m.lookup slug with
    | .filed i st _ => m.setSlot i (.filed st none)
    | .reserved _ _ | .damaged _ | .none => m

/-- R36, R40: a KILL that ends leaves no mark. -/
def Work.unmarkEntry (w : Work) (e : Entry) : Work :=
  match e.job, e.active with
  | .kill slug, some _ => w.clearKillMark e.drive slug
  | _, _ => w

/-- What a request holds is given up: its buffer, its wait, and its operations that are not transferring; those that
are report to nobody (R117). -/
def Work.giveUp (w : Work) (q : QSlot) : Work :=
  (((w.removeOwn q).orphan (.request q)).leaveWait (.request q)).letGo (.request q)

/-- R136: additions that an ending FILE has not written are left to a housekeeping label write. -/
def Work.leaveAdditions (w : Work) (e : Entry) : Work :=
  match e.job, e.active, (w.drive e.drive).media with
  | .file _, some _, some m =>
    if m.additions ≠ [] ∧ (w.drive e.drive).vol = .mounted then w.queueLabel e.drive else w
  | _, _, _ => w

/-- R117: a request ends with a reply. -/
def Work.endRequest (w : Work) (q : QSlot) (code : ResultCode) (body : ReplyBody) : Work :=
  match w.entry q with
  | some e => (((w.giveUp q).unmarkEntry e).leaveAdditions e).closeEntry q code body
  | none => w

/-- R65, R114: a request ends at its commit, or refused at its dispatch. -/
def Work.endPlain (w : Work) (q : QSlot) (code : ResultCode) (body : ReplyBody) : Work :=
  match w.entry q with
  | some e => ((w.giveUp q).unmarkEntry e).closeEntry q code body
  | none => w

/-- R12, R134: a request ends with its volume; a flush it started on another drive goes on without it. -/
def Work.endGone (w : Work) (q : QSlot) (code : ResultCode) : Work :=
  (((w.orphan (.request q)).leaveWait (.request q)).letGo (.request q)).closeEntry q code .none

/-! ### Staging -/

/-- R68, R136: the blocks of a list whose sectors stand on a relocations pending list. -/
def Work.failing (w : Work) (d : DriveId) (sides : Nat) (blocks : List Nat) : List Nat :=
  blocks.filter fun block =>
    match w.bufferOf (keyOf d sides block) with
    | some b => (w.buffer b).pending.contains (blockSector block)
    | none => false

/-- R136: a relocation is abandoned: its replacement is FREE again, its wait ends, and an eviction flush it started goes
on without it. -/
def Work.abandon (w : Work) (d : DriveId) (b : BufId) : Work :=
  match (w.buffer b).reloc with
  | some r =>
    ((w.updMedia d (·.mark [r.replacement] .free)).updBuffer b fun bu => { bu with reloc := none }).orphan (.relocation b)
      |>.leaveWait (.relocation b)
  | none => w

/-- R136: the relocations of a check-out are abandoned. -/
def Work.abandonAll (w : Work) (d : DriveId) (h : HandleIx) : Work :=
  w.each allBuffers fun b w => if (w.buffer b).reloc.any (·.handle == h) then w.abandon d b else w

/-- R135: the DIRTY sectors of blocks are dropped, in the order of the list, which is the byte order of the staged blocks in a
staging release. A buffer that is emptied by it becomes FREE with the last of its sectors, so that of several emptied buffers the
one emptied last ends least recent: the model's choice (log 45). -/
def Work.dropBlocks (w : Work) (d : DriveId) (sides : Nat) (blocks : List Nat) : Work :=
  w.each blocks fun block w =>
    match w.sectorOf d sides block with
    | some (b, s) => if s.cell.isDirty then w.dropSector b (blockSector block) else w
    | none => w

/-- R68: a failed block becomes BAD, and is recorded unless the volume is WRITE_FAULTED. -/
def Media.fail (recorded : Bool) (m : Media) (b : Nat) : Media := if recorded then m.recordBad b else m.mark [b] .bad

/-- R68: the map's side of the staging release; the failing blocks are recorded in the byte order of the staging list, the
model's choice where the spec gives none (log 46). A label write is then queued (log 24), but not under an ACTIVE FILE, whose
end leaves one while additions are pending (R136). -/
def Work.releaseBlocks (w : Work) (d : DriveId) (blocks : List Nat) (underFile : Bool) : Work :=
  let bad := w.failing d (w.sides d) blocks
  let recorded := (w.drive d).vol != .writeFaulted
  let w := w.updMedia d fun m => bad.foldl (Media.fail recorded) (m.mark (blocks.filter (!bad.contains ·)) .free)
  if recorded && bad != [] && !underFile then w.queueLabel d else w

/-- R136, R63: whether the check-out has an ACTIVE FILE. -/
def Work.filing (w : Work) (h : HandleIx) : Bool :=
  match w.entryNaming h with
  | some (_, e) => match e.job, e.active with
    | .file _, some _ => true
    | _, _ => false
  | none => false

/-- R68: the staging release of a check-out, which an ACTIVE FILE of it may cause (R137). -/
def Work.releaseStaging (w : Work) (h : HandleIx) (underFile : Bool) : Work :=
  match w.handle h with
  | some hd => match hd.staging with
    | some st =>
      let blocks := blocksOf st.extents
      let w := (w.abandonAll hd.drive h).releaseBlocks hd.drive blocks underFile
      let w := (w.dropBlocks hd.drive (w.sides hd.drive) blocks).updHandle h fun x => { x with staging := none }
      if st.newStory then w.updMedia hd.drive (·.setSlot hd.slot .empty) else w
    | none => w
  | none => w

/-- R47: a handle becomes DEFUNCT. -/
def Work.defunct (w : Work) (h : HandleIx) (c : Cause) : Work := w.updHandle h (·.makeDefunct c)

/-- R73: the reply to the request that names a check-out made LOST. -/
def lostCode (e : Entry) (tailRead : Bool) : ResultCode :=
  match e.job, e.active with
  | .file _, some _ => .mediaError
  | .write _ _ _, some _ => if tailRead then .mediaError else .lost
  | _, _ => .lost

/-- R73: a check-out made LOST by a failed relocation or a failed tail read; additions that this leaves under an ACTIVE FILE have
their label write queued as the FILE ends (R136). -/
def Work.makeLost (w : Work) (h : HandleIx) (tailRead : Bool) : Work :=
  match w.handle h with
  | some hd =>
    let w := ((w.releaseStaging h (w.filing h)).defunct h .lost).notify hd.desk (.lost hd.drive [h])
    match w.entryNaming h with
    | some (q, e) => w.endRequest q (lostCode e tailRead) .none
    | none => w
  | none => w

/-! ### A WRITE set back -/

/-- R60: the bytes placed in the tail sector beyond the staged length are set back to zero. -/
def Work.zeroTail (w : Work) (d : DriveId) (staged : Nat) (block : Nat) : Work :=
  match w.sectorOf d (w.sides d) block with
  | some (b, s) => match s.cell.content? with
    | some c => w.soil b (blockSector block) (pad Config.sectorBytes (c.take (staged % 256)))
    | none => w
  | none => w

/-- R60: the block allocated for a WRITE is returned and its made-up sector dropped. -/
def Work.returnBlock (w : Work) (h : HandleIx) (d : DriveId) (block : Nat) : Work :=
  ((w.dropBlocks d (w.sides d) [block]).updMedia d (·.giveBack block)).updHandle h fun x =>
    { x with staging := x.staging.map fun st => { st with extents := dropBlock st.extents } }

/-- R60: a WRITE whose last byte is not placed is set back. -/
def Work.setBack (w : Work) (h : HandleIx) (tailPlaced : Bool) (newBlock : Option Nat) : Work :=
  match w.handle h with
  | some hd => match hd.staging with
    | some st =>
      let w := match newBlock with
        | some b => w.returnBlock h hd.drive b
        | none => w
      match tailPlaced, (blocksOf st.extents)[st.length / 256]? with
      | true, some block => w.zeroTail hd.drive st.length block
      | _, _ => w
    | none => w
  | none => w

/-! ### Commits -/

/-- R75: the lowest record that is not in use. -/
def Work.freeRecord (w : Work) : Option RecIx := allRecords.find? fun r => (w.record r).isNone

/-- R66, R41: the notice to each reader, in ascending order of handle number. -/
def Work.notifyReaders (w : Work) (hs : List HandleIx) (n : HandleIx → Notice) : Work :=
  w.each hs fun h w => match w.handle h with
    | some x => w.notify x.desk (n h)
    | none => w

/-- R66: the readers' pin source changed. -/
def Work.repin (w : Work) (hs : List HandleIx) (s : PinSource) : Work :=
  w.each hs fun h w => w.updHandle h fun x => { x with pin := x.pin.map fun p => { p with source := s } }

/-- R56: a queued READ through a handle made SUPERSEDED is replied SUPERSEDED. -/
def Work.endReadOf (w : Work) (h : HandleIx) (code : ResultCode) : Work :=
  match w.entryNaming h with
  | some (q, _) => w.endRequest q code .none
  | none => w

/-- R66, R41, R75: what becomes of the version that leaves a slot; the notice is made of the handle and the withdrawn
flag. The slot must already hold what replaces the version. The SUPERSEDED replies go in ascending order of handle and
before the reply to the FILE or KILL, the model's choice (log 10). -/
def Work.dispose (w : Work) (d : DriveId) (old : Story) (readers : List HandleIx) (n : HandleIx → Bool → Notice) : Work :=
  let blocks := blocksOf old.extents
  if old.length = 0 then (w.repin readers .empty).notifyReaders readers (n · false)
  else if readers = [] then w.updMedia d (·.mark blocks .free)
  else match w.freeRecord with
    | some r =>
      let w := w.setRecord r (some ⟨d, old.length, old.extents, readers.length⟩)
      ((w.updMedia d (·.mark blocks .retired)).repin readers (.record r)).notifyReaders readers (n · false)
    | none =>
      let w := (w.updMedia d (·.mark blocks .free)).notifyReaders readers (n · true)
      (w.each readers fun h w => w.defunct h .superseded).each readers fun h w => w.endReadOf h .superseded

/-- R65: the entry number leaves use. -/
def Work.freeEntry (w : Work) (h : HandleIx) : Work := w.setHandle h none

/-- R65: the commit of a FILE with the pending entry. -/
def Work.commitFile (w : Work) (q : QSlot) (h : HandleIx) (entry : Story) : Work :=
  match w.handle h with
  | some hd =>
    let old := w.slotOf hd
    let readers := w.readersOf hd.drive hd.slot
    let w := w.updMedia hd.drive fun m => (m.setSlot hd.slot (.filed entry none)).mark (blocksOf entry.extents) .filed
    let w := match old with
      | .filed st _ => w.dispose hd.drive st readers fun i b => .refiled i entry.version b
      | .empty | .reserved _ _ | .damaged _ _ => w
    (w.freeEntry h).endPlain q .ok (.filed entry.version (hd.base.getD 0) entry.length)
  | none => w

/-- R41: the commit of a KILL. -/
def Work.commitKill (w : Work) (q : QSlot) (d : DriveId) (slug : Chars) : Work :=
  match (w.drive d).media with
  | some m => match m.lookup slug with
    | .filed i st _ =>
      let readers := w.readersOf d i
      ((w.updMedia d (·.setSlot i .empty)).dispose d st readers fun i b => .killed i b).endPlain q .ok
        (.killed slug st.version)
    | .reserved _ _ | .damaged _ | .none => w
  | none => w

end Sys2Proof.Machine
end

