-- ==== Sys2Proof/Machine/Volume.lean ====
section
/-! DEFINITION. The volume of a drive: teardown (R12), mount (R7 to R11), entry to WRITE_FAULTED (R16, R17), FORMAT's
ends (R20 to R22), a taken level (R6, R13, R141) and the volume of a drive that becomes FAULTED (R14). -/

namespace Sys2Proof.Machine

open Sys2Proof

/-- The volume state of a drive set. -/
def Work.setVol (w : Work) (d : DriveId) (v : VolState) : Work := w.updDrive d fun dr => { dr with vol := v }

/-- Whether a volume is one that LIST, OPEN and CREATE are answered on (R42, R50, R53). -/
def VolState.present : VolState → Bool
  | .mounted | .writeProtected | .writeFaulted => true
  | .absent | .mounting | .foreign | .unreadable | .formatting => false

/-- Requests of a drive that satisfy a test, in ascending order of slot (log 10). -/
def Work.entriesOf (w : Work) (d : DriveId) (p : QSlot → Entry → Bool) : List QSlot :=
  allEntries.filter fun q => match w.entry q with
    | some e => e.drive == d && p q e
    | none => false

/-- Handles on a drive that satisfy a test, in ascending order of number. -/
def Work.handlesOn (w : Work) (d : DriveId) (p : Handle → Bool) : List HandleIx :=
  allHandles.filter fun i => match w.handle i with
    | some h => h.drive == d && p h
    | none => false

/-- R12, R17, R77: one LOST notice to each desk, listing its handles. -/
def Work.notifyLost (w : Work) (d : DriveId) (hs : List HandleIx) : Work :=
  w.each allDesks fun k w =>
    let own := hs.filter fun i => (w.handle i).any (·.desk == k)
    if own = [] then w else w.notify k (.lost d own)

/-! ### Teardown -/

/-- R12: every buffer of a drive becomes FREE; what waits for one of them, or flushes for one, goes on without it. Those
that are not FREE yet are freed in ascending number, so that the highest ends least recent: the model's choice (log 45). -/
def Work.freeBuffers (w : Work) (d : DriveId) : Work :=
  w.each allBuffers fun b w =>
    if (w.buffer b).key.any (·.drive == d) then
      ((w.orphan (.relocation b)).leaveWait (.relocation b)).freeBuffer b
    else w

/-- R12: the records of a drive are removed. -/
def Work.dropRecords (w : Work) (d : DriveId) : Work :=
  w.each allRecords fun r w => if (w.record r).any (·.drive == d) then w.setRecord r none else w

/-- R12: every handle on the drive that is not DEFUNCT becomes LOST, with notices or without (R23). -/
def Work.loseHandles (w : Work) (d : DriveId) (notices : Bool) : Work :=
  let hs := w.handlesOn d (!·.isDefunct)
  let w := w.each hs fun h w => w.defunct h .lost
  if notices then w.notifyLost d hs else w

/-- R7: the mount's own party is gone: no wait, and its flush of another drive goes on without it. -/
def Work.dropMount (w : Work) (d : DriveId) : Work :=
  ((w.orphan (.mount d)).leaveWait (.mount d)).updDrive d fun dr => { dr with mount := none }

/-- R12: teardown, with or without notices; a REMOUNT that causes it is spared (R23). The cause sets the state. -/
def Work.teardown (w : Work) (d : DriveId) (spared : Option QSlot) (notices : Bool) : Work :=
  let w := (w.removeOps d fun _ => true).dropMount d
  let w := w.each (w.entriesOf d fun q _ => some q != spared) fun q w => w.endGone q .volumeGone
  let w := ((w.loseHandles d notices).freeBuffers d).dropRecords d
  (w.endStreams d).updDrive d fun dr => { dr with media := none }

/-! ### Mount -/

/-- R7: the mount sequence starts: RECALIBRATE at once, and the mount wants its buffer. -/
def Work.startMount (w : Work) (d : DriveId) : Work :=
  w.updDrive d fun dr =>
    { dr with vol := .mounting, mount := some ⟨.wanting, none, none, []⟩ }.append
      ⟨.recalibrate, 0, 0, none, .none, .mount d, false⟩

/-- R8, R111: whether a waiting request is refused when a mount ends without a volume. -/
def Entry.needsVolume (e : Entry) : Bool :=
  e.active.isNone && match e.job with
    | .format _ _ _ | .remount => false
    | .read _ _ _ | .write _ _ _ | .file _ | .kill _ => true

/-- R7: the mount's buffer is emptied and becomes FREE. -/
def Work.freeMountBuffer (w : Work) (d : DriveId) : Work :=
  w.each allBuffers fun b w => if (w.buffer b).heldBy = some (.mount d) then w.freeBuffer b else w

/-- R7, R8, R9, R11, R23: a mount ends; the waiting requests are refused where there is no volume, and an ACTIVE REMOUNT
is replied with the state, after the refusals whatever its slot: the model's choice (log 10). -/
def Work.endMount (w : Work) (d : DriveId) (v : VolState) (media : Option Media) : Work :=
  let w := ((w.removeOps d fun _ => true).freeMountBuffer d).dropMount d
  let w := w.updDrive d fun dr => { dr with vol := v, media := media }
  let w := if v.present then w
    else w.each (w.entriesOf d fun _ e => e.needsVolume) fun q w => w.closeEntry q .notMounted .none
  match w.activeOf d with
  | some (q, _, _) => w.endPlain q .ok (.remounted v)
  | none => w

/-- R7: the mount has its buffer: it holds it and its READ_TRACK of track 0 is queued. -/
def Work.mountGot (w : Work) (d : DriveId) (b : BufId) : Work :=
  ((w.hold b (.mount d)).fill b (.mount d)).updDrive d fun dr =>
    { dr with mount := dr.mount.map fun m => { m with place := .track0, buffer := some b } }

/-- R7: the content of a sector of the mount's buffer, absent where it was unreadable. -/
def Buffer.readable (bu : Buffer) (k : Fin 15) : Option Chars := (bu.sectors[k]).cell.valid?

/-- R8, R127: with a valid label the mount takes catalogue sectors 0 to 13 and goes on to track 1. -/
def Work.mountTrack1 (w : Work) (d : DriveId) (b : BufId) (label : Label) : Work :=
  let track0 := (allSectors.drop 1).map (w.buffer b).readable
  let w := w.updBuffer b fun bu => { Buffer.powerOn with state := .ready, key := some ⟨d, 1, 0⟩, heldBy := bu.heldBy }
  (w.fill b (.mount d)).updDrive d fun dr =>
    { dr with mount := dr.mount.map fun m => { m with place := .track1, label := some label, track0 } }

/-- R8: the parse of track 0. -/
def Work.parseLabel (w : Work) (d : DriveId) (b : BufId) : Work :=
  match (w.buffer b).readable 0 with
  | none => w.endMount d .unreadable none
  | some bs => match readLabel bs with
    | .foreign => w.endMount d .foreign none
    | .invalid => w.endMount d .unreadable none
    | .valid label => w.mountTrack1 d b label

/-- R9, R10, R11: the parse of track 1, and the completion of the mount. -/
def Work.parseCatalogue (w : Work) (d : DriveId) (b : BufId) (label : Label) (track0 : List (Option Chars)) : Work :=
  let sectors := track0 ++ allSectors.map (w.buffer b).readable
  if Config.badCatalogueSectors < sectors.countP (·.isNone) then w.endMount d .unreadable none
  else w.endMount d (if (w.drive d).protectLine then .writeProtected else .mounted)
    (some (freshMedia label (readCatalogue label sectors)))

/-- R8, R9: a READ_TRACK of the mount has ended. -/
def Work.mountRead (w : Work) (d : DriveId) : Work :=
  match (w.drive d).mount with
  | some ⟨.track0, some b, _, _⟩ => w.parseLabel d b
  | some ⟨.track1, some b, some label, track0⟩ => w.parseCatalogue d b label track0
  | _ => w

/-! ### WRITE_FAULTED -/

/-- R17: the reply to a request of a volume that enters WRITE_FAULTED, if it is replied: an excepted FILE or KILL
(R36), the writing requests, and a READ through a check-out made LOST. -/
def faultCode (excepted : Option QSlot) (lost : List HandleIx) (q : QSlot) (e : Entry) : Option ResultCode :=
  match e.job with
  | .write _ _ _ | .file _ | .kill _ => some (if excepted = some q then .mediaError else .writeFaulted)
  | .read h _ _ => if lost.contains h then some .lost else none
  | .format _ _ _ | .remount => none

/-- R17: the requests of the drive that WRITE_FAULTED reaches are replied. -/
def Work.faultRequests (w : Work) (d : DriveId) (excepted : Option QSlot) (lost : List HandleIx) : Work :=
  w.each (w.entriesOf d fun q e => (faultCode excepted lost q e).isSome) fun q w =>
    match w.entry q with
    | some e => match faultCode excepted lost q e with
      | some code => w.endRequest q code .none
      | none => w
    | none => w

/-- R16, R17: a MOUNTED volume enters WRITE_FAULTED. The check-outs are released in ascending order of handle number, which is
the order in which the buffers they empty become FREE: the model's choice (log 45). -/
def Work.enterWriteFaulted (w : Work) (d : DriveId) (excepted : Option QSlot) : Work :=
  if (w.drive d).vol = .mounted then
    let lost := w.handlesOn d (·.isCheckOut)
    let w := (w.setVol d .writeFaulted).updMedia d fun m => { m with additions := [], badListFull := false }
    let w := w.removeOps d (·.kind.writes)
    let w := w.each lost fun h w => (w.releaseStaging h false).defunct h .lost
    (w.faultRequests d excepted lost).notifyLost d lost
  else w

/-! ### FORMAT -/

/-- R19: a FORMAT that passes its checks starts: the volume's records go, its operations and buffers with them, and the
other requests are refused. -/
def Work.startFormat (w : Work) (d : DriveId) (q : QSlot) : Work :=
  let w := ((w.removeOps d fun _ => true).freeBuffers d).updDrive d fun dr => { dr with media := none }
  let w := w.each (w.entriesOf d fun q' e => q' != q && e.active.isNone) fun q' w => w.closeEntry q' .notMounted .none
  (w.endStreams d).setVol d .formatting

/-- R20, R21, R22: a FORMAT ends without a volume. -/
def Work.endFormat (w : Work) (d : DriveId) (q : QSlot) (v : VolState) (code : ResultCode) : Work :=
  (w.setVol d v).endRequest q code .none

/-- R21: the new volume is mounted from what was written. -/
def Work.formatMount (w : Work) (d : DriveId) (q : QSlot) (label : Label) : Work :=
  (w.updDrive d fun dr =>
    { dr with vol := .mounted, media := some (freshMedia label (Vector.replicate 116 .empty)) }).endPlain q .ok
    (.formatted label.badBlocks.length)

/-! ### A drive lost -/

/-- R141, R158: the drive's movement and timers stop, and its transfer is aborted. -/
def Drive.stopped (dr : Drive) (m : Mech) : Drive :=
  { dr.dropUnload with mech := m, head := none, headLoad := false, runOn := false, moveTimer := none, unloadTimer := none,
                       indexWatch := none }

/-- R141: a drive that is NOT_READY. -/
def Work.notReady (w : Work) (d : DriveId) : Work := (w.abort d).updDrive d (·.stopped .notReady)

/-- R7, R13: the volume of a drive whose diskette is gone becomes ABSENT. -/
def Work.depart (w : Work) (d : DriveId) : Work :=
  match (w.drive d).vol with
  | .absent => w
  | .mounting => w.endMount d .absent none
  | .mounted | .writeProtected | .writeFaulted | .foreign | .unreadable | .formatting =>
    (w.teardown d none true).setVol d .absent

/-- R13, R141: a taken fall. -/
def Work.takenFall (w : Work) (d : DriveId) : Work :=
  ((w.notReady d).updDrive d fun dr => { dr with takenLevel := false }).depart d

/-- R7, R141: a taken rise. -/
def Work.takenRise (w : Work) (d : DriveId) : Work :=
  (w.updDrive d fun dr =>
    { dr with takenLevel := true, mech := .unloaded, head := none, indexWatch := some Config.indexWatchMs }).startMount d

/-- R14, R7, R20: the Volume Manager is told that the drive is FAULTED. -/
def Work.volumeFaulted (w : Work) (d : DriveId) : Work :=
  match (w.drive d).vol with
  | .mounted | .writeProtected | .writeFaulted => (w.teardown d none true).setVol d .unreadable
  | .mounting => w.endMount d .unreadable none
  | .formatting => match w.activeOf d with
    | some (q, _, _) => w.endFormat d q .unreadable .mediaError
    | none => w.setVol d .unreadable
  | .foreign | .unreadable | .absent => w

end Sys2Proof.Machine
end

