-- ==== Sys2Proof/Machine/Progress.lean ====
section
/-! DEFINITION. How an ACTIVE request, a mount and a relocation go on when nothing holds them: READ (R130), WRITE
(R131), FILE's barrier (R62), FORMAT's operations (R20, R21), relocation (R136, R137), and what a noted CANCEL ends
(R123). -/

namespace Sys2Proof.Machine

open Sys2Proof

/-- The handle and staging of a check-out. -/
def Work.stagingOf (w : Work) (h : HandleIx) : Option (Handle × Staging) :=
  match w.handle h with
  | some hd => hd.staging.map fun st => (hd, st)
  | none => none

/-- A staging's extent list changed. -/
def Work.setExtents (w : Work) (h : HandleIx) (xs : List Extent) : Work :=
  w.updHandle h fun x => { x with staging := x.staging.map fun st => { st with extents := xs } }

/-! ### Relocation -/

/-- R136 step 4: the content moves into the replacement's sector; a list that would hold more than eight extents by
then fails the relocation (R137, log 34). -/
def Work.relocateInto (w : Work) (b0 b : BufId) : Work :=
  match (w.buffer b0).reloc, (w.buffer b0).key, (w.buffer b0).pending with
  | some r, some key, k :: rest =>
    match ((w.buffer b0).sectors[k]).cell.content?, w.stagingOf r.handle with
    | some content, some (_, st) =>
      let old := blockAt (w.sides key.drive) key.track key.side k.val
      let xs := replaceBlock st.extents old r.replacement
      w.keepingUnload key.drive ((w.drive key.drive).idleRelocs.contains b0) fun w =>
        if Config.maxExtents < xs.length then w.makeLost r.handle false
        else
          let w := (w.soil b (blockSector r.replacement) content).giveUpSector b0 k rest
          let w := (w.updBuffer b0 fun bu => { bu with reloc := none }).setExtents r.handle xs
          let w := w.updMedia key.drive (·.recordBad old)
          (if w.filing r.handle then w else w.queueLabel key.drive).tidy b0
    | _, _ => w
  | _, _, _ => w

/-- R137: the relocation of a buffer's sector cannot be made, and its check-out is LOST. -/
def Work.relocationLost (w : Work) (d : DriveId) (b : BufId) (h : HandleIx) : Work :=
  w.keepingUnload d ((w.drive d).idleRelocs.contains b) (·.makeLost h false)

/-! ### Parties and buffers -/

/-- R127, R128: a party has obtained a buffer; one that a relocation leaves READY, not held and bare becomes FREE
(R124). -/
def Work.receive (w : Work) (p : Party) (b : BufId) : Work :=
  match p with
  | .request q => (w.hold b (.request q)).setPlace q (.holding b)
  | .mount d => w.mountGot d b
  | .relocation b0 => (w.relocateInto b0 b).tidy b

/-- R128: a party asks for a buffer by the five steps: it has it, waits for its eviction flush, or waits on the list. -/
def Work.askNow (w : Work) (p : Party) (key : TrackKey) : Work :=
  match w.obtain p key with
  | (w, .got b) => (w.leaveWait p).receive p b
  | (w, .evicting) => (w.leaveWait p).setAwait p .evicting
  | (w, .none) => (w.joinWait p).setAwait p .waiting

/-- R128: a party asks for a buffer; while the pool has yet to take its wait list for an event, the waiters come first, and
the party joins them (log 40). -/
def Work.ask (w : Work) (p : Party) (key : TrackKey) : Work :=
  if w.poolDue ∧ w.waitList ≠ [] then (w.joinWait p).setAwait p .waiting else w.askNow p key

/-- R136 steps 1 to 3: the relocation of the first sector of a pending list. -/
def Work.relocate (w : Work) (b : BufId) : Work :=
  match (w.buffer b).key, (w.buffer b).pending, (w.buffer b).reloc with
  | some key, k :: _, none =>
    let block := blockAt (w.sides key.drive) key.track key.side k.val
    let owner := allHandles.find? fun h => (w.stagingOf h).any fun (hd, st) =>
      hd.drive == key.drive && (blocksOf st.extents).contains block
    match owner, (w.drive key.drive).media with
    | some h, some m =>
      match m.allocate, w.stagingOf h with
      | some (r, m'), some (_, st) =>
        if Config.maxExtents < (replaceBlock st.extents block r).length then
          (w.updMedia key.drive fun _ => m'.giveBack r).relocationLost key.drive b h
        else
          let w := (w.updMedia key.drive fun _ => m').updBuffer b fun bu => { bu with reloc := some ⟨h, r, .wanting⟩ }
          w.ask (.relocation b) (keyOf key.drive m.label.sides r)
      | _, _ => w.relocationLost key.drive b h
    | _, _ => w
  | _, _, _ => w

/-! ### READ -/

/-- R55: a queued READ is replied from its assembly area, and the read position moves. -/
def Work.readDone (w : Work) (q : QSlot) (h : HandleIx) (offset : Nat) (area : Chars) : Work :=
  (w.updHandle h fun x => { x with readPos := offset + area.length }).endRequest q .ok (.read offset area)

/-- R130: the next thing an ACTIVE READ does. -/
def Work.stepRead (w : Work) (q : QSlot) (d : DriveId) (h : HandleIx) (place : Place) (offset : Nat)
    (todo : List Piece) (area : Chars) : Option Work :=
  match todo with
  | [] => some (w.readDone q h offset area)
  | p :: ps =>
    let group := sameSide p.block (p :: ps)
    let copied := (w.validPieces d group).map fun bytes =>
      ((w.setProgress q (.read offset ((p :: ps).drop group.length) (area ++ bytes))).letGo (.request q)).setPlace q .run
    let afresh := copied.or (some (w.askNow (.request q) (keyOf d (w.sides d) p.block)))
    match place with
    | .run => copied.or (some (w.ask (.request q) (keyOf d (w.sides d) p.block)))
    | .evicted => afresh
    | .draining c => if w.drained c then afresh else none
    | .holding b =>
      if (w.buffer b).state = .ready then copied.or (some ((w.fill b (.request q)).setPlace q (.filling b))) else none
    | _ => none

/-! ### WRITE -/

/-- R131: the block whose sector a WRITE places next, and whether it is the tail block. -/
def writeTarget (st : Staging) (data : Chars) (tailPlaced : Bool) (newBlock : Option Nat) : Option (Bool × Nat) :=
  if tailPart st.length data ≠ [] ∧ tailPlaced = false then
    ((blocksOf st.extents)[st.length / 256]?).map fun b => (true, b)
  else if newPart st.length data ≠ [] then newBlock.map fun b => (false, b)
  else none

/-- R59: the last byte is placed: the staged length moves and the WRITE is replied. -/
def Work.writeDone (w : Work) (q : QSlot) (h : HandleIx) (offset : Nat) (data : Chars) : Work :=
  (w.updHandle h fun x =>
    { x with staging := x.staging.map fun st => { st with length := offset + data.length } }).endRequest q .ok
    (.written (offset + data.length))

/-- R127, R131: a WRITE's tail is placed: it keeps the buffer for a new block on the same track-side, and else lets go. -/
def Work.afterTail (w : Work) (q : QSlot) (b : BufId) (more : Bool) : Work :=
  if more then w.setPlace q (.holding b) else (w.letGo (.request q)).setPlace q .run

/-- R131: a WRITE places its bytes in the sector of a buffer it holds, or reads the tail back first. `more` tells that its new
block lies on the track-side of its tail. -/
def Work.placeBytes (w : Work) (q : QSlot) (h : HandleIx) (b : BufId) (staged offset : Nat) (data : Chars)
    (isTail : Bool) (block : Nat) (newBlock : Option Nat) (more : Bool) : Option Work :=
  let k := blockSector block
  if isTail then
    match ((w.buffer b).sectors[k]).cell.content? with
    | some c =>
      let w := w.soil b k (overlay c (staged % 256) (tailPart staged data))
      some ((w.setProgress q (.write true newBlock)).afterTail q b more)
    | none =>
      if (w.buffer b).state = .ready then some ((w.fill b (.request q)).setPlace q (.filling b)) else none
  else some ((w.soil b k (pad Config.sectorBytes (newPart staged data))).writeDone q h offset data)

/-- R131: the next thing an ACTIVE WRITE does. -/
def Work.stepWrite (w : Work) (q : QSlot) (d : DriveId) (h : HandleIx) (place : Place) (offset : Nat) (data : Chars)
    (tailPlaced : Bool) (newBlock : Option Nat) : Option Work :=
  match w.stagingOf h with
  | some (_, st) =>
    match writeTarget st data tailPlaced newBlock with
    | none => some (w.writeDone q h offset data)
    | some (isTail, block) =>
      let key := keyOf d (w.sides d) block
      match place with
      | .run => some (w.ask (.request q) key)
      | .evicted => some (w.askNow (.request q) key)
      | .draining c => if w.drained c then some (w.askNow (.request q) key) else none
      | .holding b =>
        if (w.buffer b).key = some key then w.placeBytes q h b st.length offset data isTail block newBlock
            (newBlock.any fun nb => keyOf d (w.sides d) nb == key)
        else some ((w.letGo (.request q)).setPlace q .run)
      | _ => none
  | none => none

/-! ### FILE -/

/-- Buffers in ascending order of track and side (R62, R138). -/
def Work.insertByPlace (w : Work) (b : BufId) : List BufId → List BufId
  | [] => [b]
  | c :: cs =>
    let at_ := fun x : BufId => match (w.buffer x).key with
      | some k => 2 * k.track + k.side
      | none => 0
    if at_ b ≤ at_ c then b :: c :: cs else c :: w.insertByPlace b cs

/-- The buffers that satisfy a test, in ascending order of track and side. -/
def Work.buffersWhere (w : Work) (p : BufId → Bool) : List BufId := (allBuffers.filter p).foldr w.insertByPlace []

/-- R62: the buffers that hold a DIRTY sector of a staging version. -/
def Work.stagedBuffers (w : Work) (d : DriveId) (st : Staging) : List BufId :=
  let dirty := (blocksOf st.extents).filterMap fun block => match w.sectorOf d (w.sides d) block with
    | some (b, s) => if s.cell.isDirty then some b else none
    | none => none
  w.buffersWhere dirty.contains

/-- R62: the barrier's flushes, of the buffers that are READY. -/
def Work.barrier (w : Work) (q : QSlot) (bs : List BufId) : Work :=
  w.each bs fun b w => if (w.buffer b).state = .ready then w.flush b (.request q) else w

/-- R62: the barrier looks again when its flushes have completed and every buffer it waits for is READY. -/
def Work.stepFile (w : Work) (q : QSlot) (d : DriveId) (h : HandleIx) (place : Place) : Option Work :=
  match place, w.stagingOf h with
  | .barrier, some (_, st) =>
    if w.ownOps q ≠ 0 then none
    else
      let bs := w.stagedBuffers d st
      if bs = [] then some (w.setPlace q .barrierDone)
      else if bs.all fun b => (w.buffer b).state == .ready then some (w.barrier q bs)
      else none
  | _, _ => none

/-! ### FORMAT -/

/-- R20: the i-th FORMAT_TRACK. -/
def formatTrackOp (q : QSlot) (sides i : Nat) : Op :=
  ⟨.formatTrack, i / sides, i % sides, none, .none, .request q, false⟩

/-- R21: the i-th record write: catalogue sectors 0 to 28, and the label last. -/
def formatRecordOp (q : QSlot) (i : Nat) : Op :=
  if i < 29 then ⟨.catalogueWrite, catalogueTrack i, 0, none, .empty i, .request q, false⟩
  else ⟨.labelWrite, 0, 0, none, .none, .request q, false⟩

/-- R20, R21: the next operation of a FORMAT and its progress with it. -/
def FormatProgress.next (q : QSlot) (sides : Nat) (p : FormatProgress) : Option (Op × FormatProgress) :=
  match p.records with
  | none => if p.queued < 77 * sides then some (formatTrackOp q sides p.queued, { p with queued := p.queued + 1 }) else none
  | some (queued, ended) =>
    if queued < 30 then some (formatRecordOp q queued, { p with records := some (queued + 1, ended) }) else none

/-- R115: a FORMAT appends operations while it keeps fewer than eight; a noted CANCEL adds none (R123). -/
def Work.topUp : Nat → QSlot → Work → Work
  | 0, _, w => w
  | n + 1, q, w =>
    match w.entry q with
    | some ⟨_, _, .format _ _ sides, d, _, _, some ⟨_, false, _, .format p⟩⟩ =>
      if w.ownOps q < Config.ownOps then
        match p.next q sides with
        | some (op, p') => topUp n q ((w.setProgress q (.format p')).append d op)
        | none => w
      else w
    | _ => w

/-- R20: the new bad-block list with the bad sectors of a track-side, or none where the FORMAT fails. -/
def judgeTrack (sides track side : Nat) (bad : List (Fin 15)) (list : List Nat) : Option (List Nat) :=
  if bad = [] then some list
  else if track < 2 then none
  else if list.length + bad.length ≤ Config.badListSize then
    some (list ++ bad.map fun k => blockAt sides track side k.val)
  else none

/-! ### A noted CANCEL -/

/-- R123: a READ, WRITE or FILE ends CANCELLED; a WRITE is set back (R60). -/
def Work.endCancelled (w : Work) (q : QSlot) : Work :=
  match w.entry q with
  | some e => match e.job, e.active with
    | .write h _ _, some ⟨_, _, _, .write tailPlaced newBlock⟩ =>
      ((w.giveUp q).setBack h tailPlaced newBlock).endRequest q .cancelled .none
    | _, _ => w.endRequest q .cancelled .none
  | none => w

/-- R67: whether a sector of a check-out still awaits its relocation (log 22). -/
def Work.relocating (w : Work) (h : HandleIx) : Bool :=
  match w.stagingOf h with
  | some (hd, st) => w.failing hd.drive (w.sides hd.drive) (blocksOf st.extents) != []
  | none => false

/-- R123: what a noted CANCEL does once no operation of the request is transferring. -/
def Work.stepCancelled (w : Work) (q : QSlot) (job : Job) : Option Work :=
  if w.ownTransfer q then none
  else match job with
    | .read _ _ _ | .write _ _ _ => some (w.endCancelled q)
    | .file h => if w.relocating h then none else some (w.endCancelled q)
    | .kill _ | .format _ _ _ | .remount => none

/-! ### The drive's ACTIVE request -/

/-- R115: the ACTIVE request of a drive goes on, if it can. -/
def Work.advance (w : Work) (d : DriveId) : Option Work :=
  match w.activeOf d with
  | some (q, e, a) =>
    if a.cancelNoted then w.stepCancelled q e.job
    else match e.job, a.progress with
      | .read h _ _, .read offset todo area => w.stepRead q d h a.place offset todo area
      | .write h offset data, .write tailPlaced newBlock => w.stepWrite q d h a.place offset data tailPlaced newBlock
      | .file h, _ => w.stepFile q d h a.place
      | _, _ => none
  | none => none

/-- R7, R134: a mount that wants its buffer asks for it. -/
def Work.stepMount (w : Work) (d : DriveId) : Option Work :=
  match (w.drive d).mount with
  | some m => match m.place with
    | .wanting => some (w.ask (.mount d) ⟨d, 0, 0⟩)
    | .evicted => some (w.askNow (.mount d) ⟨d, 0, 0⟩)
    | .draining c => if w.drained c then some (w.askNow (.mount d) ⟨d, 0, 0⟩) else none
    | .evicting | .waiting | .track0 | .track1 => none
  | none => none

/-- R134, R136: a relocation that wants a buffer asks for it. -/
def Work.stepReloc (w : Work) (b : BufId) : Option Work :=
  match (w.buffer b).key, (w.buffer b).reloc with
  | some key, some r =>
    let wanted := keyOf key.drive (w.sides key.drive) r.replacement
    match r.place with
    | .wanting => some (w.ask (.relocation b) wanted)
    | .evicted => some (w.askNow (.relocation b) wanted)
    | .draining c => if w.drained c then some (w.askNow (.relocation b) wanted) else none
    | .evicting | .waiting => none
  | _, _ => none

end Sys2Proof.Machine
end

