-- ==== Sys2Proof/Machine/Transfer.lean ====
section
/-! DEFINITION. The drive channel's grant (R150, R151), the ends of attempts (R152 to R156), operations that fail at once
(R157), a drive that becomes FAULTED (R158, R159) and the report of an operation's outcome to its buffer and its origin
(R161). -/

namespace Sys2Proof.Machine

open Sys2Proof

/-! ### The end of an operation -/

/-- R148, R161: the current operation leaves the queue and the channel is released. -/
def Work.takeOff (w : Work) (d : DriveId) : Work :=
  (w.release d).updDrive d fun dr => Drive.refill { dr with ops := dr.ops.drop 1, mech := .idle, moveTimer := none }

/-- R129: a sector at the end of a READ_TRACK. -/
def fillSector (done : List (Fin 15 × Chars)) (k : Fin 15) (s : Sector) : Sector :=
  match done.lookup k with
  | some c => if s.cell.isDirty then s else ⟨.valid c, s.mark⟩
  | none => s

/-- R129: a READ_TRACK's end fills its buffer. -/
def Work.fillEnd (w : Work) (b : BufId) (a : Attempt) : Work :=
  ((w.updBuffer b fun bu =>
    { bu with state := .ready, sectors := Vector.ofFn fun k => fillSector a.done k bu.sectors[k] }).poolEvent).tidy b

/-- R133: a sector at the end of a WRITE_SECTORS: one that was written and is not marked becomes VALID. -/
def writtenSector (done : List (Fin 15 × Chars)) (k : Fin 15) (s : Sector) : Sector :=
  match s.cell with
  | .dirty c => ⟨if (done.lookup k).isSome && !s.mark then .valid c else .dirty c, false⟩
  | .absent | .valid _ => ⟨s.cell, false⟩

/-- R133: whether a sector of the set failed and is to be relocated: it is DIRTY and not marked, and its block STAGED. -/
def Work.failedSector (w : Work) (b : BufId) (a : Attempt) (k : Fin 15) : Bool :=
  let s := (w.buffer b).sectors[k]
  a.taken.any (·.1 == k) && (a.done.lookup k).isNone && s.cell.isDirty && !s.mark
    && match (w.buffer b).key with
      | some key => (w.drive key.drive).media.any fun m =>
          cellState m.cells (blockAt m.label.sides key.track key.side k.val) == .staged
      | none => false

/-- R133: a WRITE_SECTORS's end. The flush has ended for the pool's wait list (R128) with the buffer READY (log 40). -/
def Work.writeEnd (w : Work) (b : BufId) (a : Attempt) : Work :=
  let failed := allSectors.filter (w.failedSector b a)
  let w := w.updBuffer b fun bu =>
    { bu with sectors := Vector.ofFn fun k => writtenSector a.done k bu.sectors[k],
              pending := failed,
              state := if failed = [] then .ready else .flushing }
  if failed = [] then w.poolEvent.tidy b else w

/-- R130, R117: a READ's own fill has ended: it goes on, or a needed sector is unreadable. -/
def Work.readFilled (w : Work) (q : QSlot) (d : DriveId) (b : BufId) (noted : Bool) (todo : List Piece) : Work :=
  match todo with
  | [] => w.setPlace q (.holding b)
  | p :: ps =>
    if (w.validPieces d (sameSide p.block (p :: ps))).isSome || noted then w.setPlace q (.holding b)
    else w.endRequest q .mediaError .none

/-- R131, R60: a WRITE's tail read has ended: it goes on, or the check-out is LOST. A buffer let go by a noted CANCEL that
has become FREE holds no tail sector (R123, R124). -/
def Work.tailFilled (w : Work) (q : QSlot) (d : DriveId) (h : HandleIx) (b : BufId) : Work :=
  match w.stagingOf h with
  | some (_, st) => match (blocksOf st.extents)[st.length / 256]? with
    | some block => match w.sectorOf d (w.sides d) block with
      | some (_, s) => if s.cell = .absent then w.makeLost h true else w.setPlace q (.holding b)
      | none => w.makeLost h true
    | none => w
  | none => w

/-- R161: a READ_TRACK reports to its origin. -/
def Work.reportRead (w : Work) (d : DriveId) (b : BufId) (origin : Origin) : Work :=
  match origin with
  | .request q => match w.entry q with
    | some e => match e.job, e.active with
      | .read _ _ _, some ⟨_, noted, _, .read _ todo _⟩ => w.readFilled q d b noted todo
      | .write h _ _, some _ => w.tailFilled q d h b
      | _, _ => w
    | none => w
  | .mount m => w.mountRead m
  | .idleFlush | .labelWrite | .relocation _ | .nobody => w

/-- R36: the outcome of the catalogue write of a FILE or a KILL, by the class of its last read-back. -/
def Work.catalogueOutcome (w : Work) (q : QSlot) (e : Entry) (a : Attempt) : Work :=
  match a.lastClass.getD .unreadable with
  | .newImage => match e.job, a.entry with
    | .file h, some entry => w.commitFile q h entry
    | .kill slug, _ => w.commitKill q e.drive slug
    | _, _ => w
  | .oldImage => w.endRequest q .mediaError .none
  | .neither | .unreadable => w.enterWriteFaulted e.drive (some q)

/-- R21: a record write of a FORMAT has ended. -/
def Work.formatRecordEnd (w : Work) (d : DriveId) (q : QSlot) (p : FormatProgress) (ok : Bool) (label : Label) : Work :=
  if ok then
    match p.records with
    | some (queued, ended) =>
      if ended = 29 then w.formatMount d q label
      else (w.setProgress q (.format { p with records := some (queued, ended + 1) })).topUp Config.ownOps q
    | none => w
  else w.endFormat d q .foreign .mediaError

/-- R20, R22: a FORMAT_TRACK has ended: its bad sectors are judged, and a noted CANCEL stops at the track's end. -/
def Work.formatTrackEnd (w : Work) (d : DriveId) (q : QSlot) (sides : Nat) (noted : Bool) (p : FormatProgress)
    (op : Op) (bad : List (Fin 15)) : Work :=
  match judgeTrack sides op.track op.side bad p.bad with
  | none => w.endFormat d q .foreign .mediaError
  | some list =>
    if noted ∧ (p.ended + 1) % sides = 0 then w.endFormat d q .foreign .cancelled
    else (w.setProgress q (.format { p with ended := p.ended + 1, bad := list })).topUp Config.ownOps q

/-- R21: the label of a FORMAT. -/
def formatLabel (name : Chars) (serial sides : Nat) (bad : List Nat) : Label := ⟨name, serial, sides, bad⟩

/-- R20, R21: an operation of a FORMAT reports. -/
def Work.reportFormat (w : Work) (d : DriveId) (q : QSlot) (op : Op) (a : Attempt) : Work :=
  match w.entry q with
  | some ⟨_, _, .format name serial sides, _, _, _, some ⟨_, noted, _, .format p⟩⟩ =>
    match op.kind with
    | .recalibrate => w.topUp Config.ownOps q
    | .formatTrack => w.formatTrackEnd d q sides noted p op a.bad
    | .catalogueWrite | .labelWrite =>
      w.formatRecordEnd d q p (a.lastClass == some .newImage) (formatLabel name serial sides p.bad)
    | .readTrack | .writeSectors => w
  | _ => w

/-- R27: the additions that a label write included move to the label copy's list. -/
def Media.include (m : Media) (included : List Nat) : Media :=
  { m with label := { m.label with badBlocks := m.label.badBlocks ++ included },
           additions := m.additions.drop included.length }

/-- R27, R63: a label write of a FILE or of housekeeping has ended. -/
def Work.labelOutcome (w : Work) (d : DriveId) (origin : Origin) (a : Attempt) : Work :=
  if a.lastClass = some .newImage then
    let w := w.updMedia d (·.include a.included)
    match origin with
    | .request q => w.setPlace q .labelDone
    | .mount _ | .idleFlush | .labelWrite | .relocation _ | .nobody => w
  else w.enterWriteFaulted d none

/-- R161: the job of an operation's origin. -/
def Work.originJob (w : Work) (o : Origin) : Option (QSlot × Entry) :=
  match o with
  | .request q => (w.entry q).map fun e => (q, e)
  | .mount _ | .idleFlush | .labelWrite | .relocation _ | .nobody => none

/-- R161: an operation that ran to its end reports to its origin. -/
def Work.reportEnd (w : Work) (d : DriveId) (op : Op) (a : Attempt) : Work :=
  match w.originJob op.origin with
  | some (q, ⟨_, _, .format _ _ _, _, _, _, _⟩) => w.reportFormat d q op a
  | other => match op.kind, op.buffer with
    | .readTrack, some b => w.reportRead d b op.origin
    | .writeSectors, some b => w.flushDone b op.origin
    | .catalogueWrite, _ => match other with
      | some (q, e) => w.catalogueOutcome q e a
      | none => w
    | .labelWrite, _ => w.labelOutcome d op.origin a
    | .recalibrate, _ | .formatTrack, _ | .readTrack, none | .writeSectors, none => w

/-- R161: the buffer takes the result before the origin does. -/
def Work.bufferResult (w : Work) (op : Op) (a : Attempt) : Work :=
  match op.buffer, op.kind with
  | some b, .readTrack => w.fillEnd b a
  | some b, .writeSectors => w.writeEnd b a
  | _, _ => w

/-! ### Failure at once -/

/-- R20, R21, R157: a FORMAT's operation fails at once. -/
def formatFailure (k : OpKind) (f : FailureKind) : ResultCode :=
  if k = .formatTrack ∧ f = .writeProtected then .writeProtected else .mediaError

/-- R161, R16, R20: a report of WRITE_PROTECTED or WRITE_FAULT. -/
def Work.reportWriteFailure (w : Work) (d : DriveId) (op : Op) (f : FailureKind) : Work :=
  match w.originJob op.origin with
  | some (q, ⟨_, _, .format _ _ _, _, _, _, _⟩) => w.endFormat d q .foreign (formatFailure op.kind f)
  | _ => (w.wake op.origin).enterWriteFaulted d none

/-- R161, R14, R117: a report of DRIVE_FAULT, INDEX_LOSS or TRACK0_NOT_FOUND replies a request of the drive MEDIA_ERROR, one
whose own eviction flush it is included (log 41); a FORMAT's outcome is settled by R20. -/
def Work.reportLoss (w : Work) (d : DriveId) (op : Op) : Work :=
  match w.originJob op.origin with
  | some (q, e) => if e.drive = d ∧ (w.drive d).vol ≠ .formatting then w.endRequest q .mediaError .none else w
  | none => w

/-- R161: an operation reports to its origin, once. -/
def Work.report (w : Work) (d : DriveId) (r : Report) : Work :=
  match r.outcome with
  | .completed | .completedWithFailures => w.reportEnd d r.op r.attempt
  | .failedAtOnce .writeProtected => w.reportWriteFailure d r.op .writeProtected
  | .failedAtOnce .writeFault => w.reportWriteFailure d r.op .writeFault
  | .failedAtOnce _ => w.reportLoss d r.op

/-- R160: the relocations that an operation of the idle flush under way leaves are its own. -/
def Work.noteIdle (w : Work) (d : DriveId) (op : Op) : Work :=
  match op.origin, op.buffer with
  | .idleFlush, some b =>
    if (w.buffer b).pending ≠ [] ∧ (w.drive d).unloadPending = true then
      w.updDrive d fun dr => { dr with idleRelocs := dr.idleRelocs ++ [b] }
    else w
  | _, _ => w

/-- R161: the current operation ends with the attempt record as it stands. -/
def Work.endOp (w : Work) (d : DriveId) : Work :=
  match (w.drive d).current with
  | some op =>
    (((w.takeOff d).bufferResult op (w.drive d).attempt).noteIdle d op).report d (reportOf op (w.drive d).attempt)
  | none => w

/-- R157, R16, R20: the current operation fails at once. -/
def Work.failAtOnce (w : Work) (d : DriveId) (f : FailureKind) : Work :=
  match (w.drive d).current with
  | some op => ((w.takeOff d).settleBuffer op).report d ⟨op, .failedAtOnce f, (w.drive d).attempt⟩
  | none => w

/-! ### A FAULTED drive -/

/-- R157, R158: the reports of a FAULTED drive's operations, in queue order: the cause for the current operation, and
DRIVE_FAULT for every other. -/
def faultReports (cause : FailureKind) (a : Attempt) : List Op → List Report
  | [] => []
  | op :: ops => ⟨op, .failedAtOnce cause, a⟩ :: ops.map fun o => ⟨o, .failedAtOnce .driveFault, Attempt.none⟩

/-- R158, R159, R161: every operation of a FAULTED drive fails and reports, in queue order; then the Volume Manager is
told. -/
def Work.failOps (w : Work) (d : DriveId) (cause : FailureKind) : Work :=
  let reports := faultReports cause (w.drive d).attempt (w.drive d).queued
  ((w.removeOps d fun _ => true).each reports fun r w => w.report d r).volumeFaulted d

/-- R144, R158: a drive becomes FAULTED, by a lost index or a track 0 that was not found. -/
def Work.driveFaulted (w : Work) (d : DriveId) (cause : FailureKind) : Work :=
  ((w.abort d).updDrive d (·.stopped .faulted)).failOps d cause

/-! ### The grant -/

/-- R35: the minute of a pending entry. -/
def clockMinute : Clock → Option Nat
  | .unset => none
  | .running m => some m

/-- R35: the pending entry of a FILE, composed from its check-out. -/
def Work.pendingStory (cfg : Cfg) (w : Work) (h : HandleIx) : Option Story :=
  match w.stagingOf h with
  | some (hd, st) =>
    let make := fun slug basket : _ => (⟨slug, basket, hd.base.getD 0 + 1, st.length, hd.desk, clockMinute cfg.clock, st.extents⟩ : Story)
    match w.slotOf hd with
    | .filed s _ => some (make s.slug s.basket)
    | .reserved slug basket => some (make slug basket)
    | .empty | .damaged _ _ => none
  | none => none

/-- R35: the pending entry of the request that a catalogue write carries; a KILL's is EMPTY. -/
def Work.pendingEntry (cfg : Cfg) (w : Work) (o : Origin) : Option Story :=
  match w.originJob o with
  | some (_, ⟨_, _, .file h, _, _, _, _⟩) => w.pendingStory cfg h
  | _ => none

/-- R35, R154: what a CATALOGUE_WRITE takes at its grant. -/
def Work.takeCatalogue (cfg : Cfg) (w : Work) (d : DriveId) (op : Op) : Attempt :=
  match op.image, (w.drive d).media with
  | .entry c slot, some m =>
    let entry := w.pendingEntry cfg op.origin
    { Attempt.none with made := 1, bad := [Fin.ofNat 15 (catalogueSector c)], entry,
                        image := catalogueImage m c slot (pendingBytes entry),
                        oldImage := some (catalogueImage m c slot (slotEntry m.catalogue[slot])) }
  | .empty c, _ =>
    { Attempt.none with made := 1, bad := [Fin.ofNat 15 (catalogueSector c)], image := emptySectorImage }
  | _, _ => { Attempt.none with made := 1, image := emptySectorImage }

/-- R27, R21: what a LABEL_WRITE takes at its grant; none where it has nothing to write. -/
def Work.takeLabel (w : Work) (d : DriveId) (op : Op) : Option Attempt :=
  match w.originJob op.origin, (w.drive d).media with
  | some (_, ⟨_, _, .format name serial sides, _, _, _, some ⟨_, _, _, .format p⟩⟩), _ =>
    some { Attempt.none with made := 1, bad := [0], image := labelImage (formatLabel name serial sides p.bad) }
  | _, some m =>
    if m.additions = [] then none
    else some { Attempt.none with
      made := 1, bad := [0], included := m.additions, oldImage := some (labelImage m.label),
      image := labelImage { m.label with badBlocks := m.label.badBlocks ++ m.additions } }
  | _, none => none

/-- R132: the DIRTY set of a buffer with its content. -/
def Buffer.dirtyContent (bu : Buffer) : List (Fin 15 × Chars) :=
  allSectors.filterMap fun k => match (bu.sectors[k]).cell with
    | .dirty c => some (k, c)
    | .absent | .valid _ => none

/-- R132: the marks of the set are cleared. -/
def Buffer.clearMarks (bu : Buffer) : Buffer :=
  { bu with sectors := Vector.ofFn fun k =>
      if (bu.sectors[k]).cell.isDirty then ⟨(bu.sectors[k]).cell, false⟩ else bu.sectors[k] }

/-- The attempt record of a drive set. -/
def Work.setAttempt (w : Work) (d : DriveId) (a : Attempt) : Work := w.updDrive d fun dr => { dr with attempt := a }

/-- R132, R153: the attempt record of a WRITE_SECTORS with the set that it takes. -/
def Work.setTaken (cfg : Cfg) (w : Work) (b : BufId) : Attempt :=
  let taken := (w.buffer b).dirtyContent
  { Attempt.none with made := 1, bad := taken.map (·.1), taken, verify := cfg.writeVerify }

/-- R132, R153: a WRITE_SECTORS takes its set; with an empty set it ends at its grant. -/
def Work.takeSectors (cfg : Cfg) (w : Work) (d : DriveId) (b : BufId) : Work :=
  let a := w.setTaken cfg b
  let w := (w.updBuffer b Buffer.clearMarks).setAttempt d a
  if a.taken = [] then w.endOp d else w

/-- R151: what an operation does at its grant. -/
def Work.take (cfg : Cfg) (w : Work) (d : DriveId) (op : Op) : Work :=
  match op.kind, op.buffer with
  | .writeSectors, some b => w.takeSectors cfg d b
  | .catalogueWrite, _ => w.setAttempt d (w.takeCatalogue cfg d op)
  | .labelWrite, _ => match w.takeLabel d op with
    | some a => w.setAttempt d a
    | none => (w.setAttempt d { Attempt.none with lastClass := some .newImage }).endOp d
  | .readTrack, _ | .formatTrack, _ | .recalibrate, _ | .writeSectors, none =>
    w.setAttempt d { Attempt.none with made := 1, bad := allSectors }

/-- R143, R148: at a grant the side line chooses the operation's side, and the operation is transferring from its first
grant. -/
def Drive.granted (dr : Drive) : Drive :=
  { dr with mech := .transferring, moveTimer := none,
            sideLine := match dr.ops with
              | op :: _ => op.side
              | [] => dr.sideLine,
            ops := match dr.ops with
              | op :: ops => { op with transferring := true } :: ops
              | [] => [],
            attempt := { dr.attempt with made := dr.attempt.made + 1, pulses := 0 } }

/-- R157: the record of an operation that the protect line fails at its grant: a WRITE_SECTORS reports its whole set. -/
def Work.refused (cfg : Cfg) (w : Work) (d : DriveId) (op : Op) : Work :=
  match op.kind, op.buffer, op.transferring with
  | .writeSectors, some b, false => w.setAttempt d (w.setTaken cfg b)
  | _, _, _ => w

/-- R150, R151: the channel is granted to a drive; the protect line is sampled first (log 19). -/
def Work.grant (cfg : Cfg) (w : Work) (d : DriveId) : Work :=
  match (w.drive d).current with
  | some op =>
    let w' := { w with owner := some d, lastGranted := d }.updDrive d Drive.granted
    if op.kind.writes && (w.drive d).protectLine then (w'.refused cfg d op).failAtOnce d .writeProtected
    else if op.transferring then w' else w'.take cfg d op
  | none => w

/-! ### Attempts -/

/-- R156: an attempt has ended: the operation ends when nothing is bad, or is retried, or ends. -/
def Work.attemptDone (cfg : Cfg) (w : Work) (d : DriveId) (ok wrongTrack : Bool) : Work :=
  if ok then w.endOp d else (w.retry cfg d wrongTrack).getD (w.endOp d)

/-- The failure kinds of the sectors still bad, each by what its reading or writing gave. -/
def Attempt.withKinds (a : Attempt) (kindOf : Fin 15 → FailureKind) : Attempt :=
  { a with kinds := a.bad.map fun k => (k, kindOf k) }

/-- R152: the failure kind of a sector that was not read: a wrong CRC, or no header in the revolution or before the header
of another track. -/
def readFailure (wrongTrack : Bool) : Option SectorRead → FailureKind
  | some .crcError => .crcError
  | some (.good _) | some .notFound | none => if wrongTrack then .wrongTrack else .sectorNotFound

/-- R152: what a READ_TRACK attempt leaves. -/
def Attempt.afterRead (a : Attempt) (wrongTrack : Bool) (rs : List SectorRead) : Attempt :=
  let read := a.bad.filterMap fun k => match (rs[k.val]? : Option SectorRead) with
    | some (.good c) => some (k, c)
    | _ => Option.none
  let after : Attempt := { a with done := a.done ++ read, bad := a.bad.filter fun k => !read.any (·.1 == k) }
  after.withKinds fun k => readFailure wrongTrack rs[k.val]?

/-- R153: whether a target was written correctly. -/
def wroteWell (verify : Bool) (content : Option Chars) : Option SectorWrite → Bool
  | some (.written (.good c)) => !verify || content == some c
  | some (.written _) => !verify
  | some .notFound | none => false

/-- R153: the failure kind of a sector that was not written correctly. -/
def writeFailureKind : Option SectorWrite → FailureKind
  | some (.written _) => .verifyMismatch
  | some .notFound | none => .sectorNotFound

/-- R153: what a WRITE_SECTORS attempt leaves. -/
def Attempt.afterWrite (a : Attempt) (wrongTrack : Bool) (rs : List SectorWrite) : Attempt :=
  if wrongTrack then a.withKinds fun _ => .wrongTrack
  else
    let good := a.bad.filter fun k => wroteWell a.verify (a.taken.lookup k) rs[k.val]?
    let written := good.filterMap fun k => (a.taken.lookup k).map fun c => (k, c)
    let after : Attempt := { a with done := a.done ++ written, bad := a.bad.filter fun k => !good.contains k }
    after.withKinds fun k => writeFailureKind rs[k.val]?

/-- R154: the class of a read-back. -/
def Attempt.classOf (a : Attempt) : SectorWrite → ReadClass
  | .written (.good c) => if c = a.image then .newImage else if a.oldImage = some c then .oldImage else .neither
  | .written .crcError | .written .notFound | .notFound => .unreadable

/-- R154: the failure kind of a record write whose read-back is not the new image. -/
def recordFailure : SectorWrite → FailureKind
  | .written (.good _) => .verifyMismatch
  | .written .crcError => .crcError
  | .written .notFound | .notFound => .sectorNotFound

/-- R154: what a CATALOGUE_WRITE or LABEL_WRITE attempt leaves (log 20). -/
def Attempt.afterSector (a : Attempt) (wrongTrack : Bool) (r : SectorWrite) : Attempt :=
  if wrongTrack then a.withKinds fun _ => .wrongTrack
  else
    let bad := if a.classOf r = .newImage then [] else a.bad
    ({ a with lastClass := some (a.classOf r), bad } : Attempt).withKinds fun _ => recordFailure r

/-- R155: what a FORMAT_TRACK attempt leaves: every sector is verified anew. -/
def Attempt.afterFormat (a : Attempt) (wrongTrack : Bool) (rs : List SectorRead) : Attempt :=
  let bad := allSectors.filter fun k => wrongTrack || rs[k.val]? != some (.good emptySectorImage)
  ({ a with bad } : Attempt).withKinds fun _ => if wrongTrack then .wrongTrack else .verifyMismatch

/-- Whether the current operation of a drive is transferring sectors and of a kind. -/
def Work.inTransfer (w : Work) (d : DriveId) (k : OpKind) : Bool :=
  (w.drive d).mech == .transferring && (w.drive d).current.any (·.kind == k)

/-- An attempt of a kind ends with its attempt record. -/
def Work.attemptEnd (cfg : Cfg) (w : Work) (d : DriveId) (k : OpKind) (after : Attempt → Attempt)
    (ok : Attempt → Bool) (wrongTrack : Bool) : Work :=
  if w.inTransfer d k then
    let a := after (w.drive d).attempt
    (w.setAttempt d a).attemptDone cfg d (ok a) wrongTrack
  else w

end Sys2Proof.Machine
end

