-- ==== Sys2Proof/Machine/Settle.lean ====
section
/-! DEFINITION. What the spec places at once after an event: requests, mounts and relocations go on, the channel is
granted, and drives begin their next operation or unload (log 8, log 9). -/

namespace Sys2Proof.Machine

open Sys2Proof

/-- R150: whether a drive may be granted the channel; while RESTARTING only an operation that is transferring may (R180). -/
def Work.requests (w : Work) (d : DriveId) : Bool :=
  (w.drive d).mech == .waitChannel && (!w.restarting || (w.drive d).current.any (·.transferring))

/-- R150: the drive that the arbiter grants to: the first requester after the last-granted drive. -/
def Work.nextGranted (w : Work) : Option DriveId :=
  [w.lastGranted + 1, w.lastGranted + 2, w.lastGranted + 3, w.lastGranted].find? w.requests

/-- R150: the channel is granted when nobody owns it and a drive asks. -/
def Work.stepChannel (cfg : Cfg) (w : Work) : Option Work :=
  match w.owner, w.nextGranted with
  | none, some d => some (w.grant cfg d)
  | _, _ => none

/-- R142, R148, R159, R160: what a drive does at rest: fail an operation when FAULTED, begin one, unload its head, or
start its head-unload timer. -/
def Work.stepDrive (cfg : Cfg) (w : Work) (d : DriveId) : Option Work :=
  let dr := w.drive d
  match dr.ops with
  | _ :: _ =>
    if dr.mech = .faulted then some (w.failOps d .driveFault)
    else if dr.mech = .idle ∨ dr.mech = .unloaded then some (w.updDrive d (Drive.begin cfg))
    else none
  | [] =>
    if dr.unloadPending then (if dr.mech = .idle then some (w.updDrive d Drive.unload) else none)
    else if dr.mech.headLoaded ∧ dr.unloadTimer = none then
      some (w.updDrive d fun dr => { dr with unloadTimer := some (cfg.headUnload * 1000) })
    else none

/-- One effect that is due, or none. -/
def settleOne (cfg : Cfg) (w : Work) : Option Work :=
  (allDrives.findSome? w.advance).or ((allDrives.findSome? w.stepMount).or ((allBuffers.findSome? w.stepReloc).or
    ((w.stepChannel cfg).or (allDrives.findSome? (w.stepDrive cfg)))))

/-- The effects that are due, one after the other. -/
def settleFor (cfg : Cfg) : Nat → Work → Work
  | 0, w => w
  | n + 1, w =>
    match settleOne cfg w with
    | some w' => settleFor cfg n w'
    | none => w

/-- Everything that comes at once after an event (log 8). -/
def settle (cfg : Cfg) (w : Work) : Work := settleFor cfg Config.settleRounds w

/-- The block's next state when a command changes the work alone. -/
def State.goOn (s : State) (w : Work) : Host.Outcome State Fault Refusal := .next { s with work := w }

/-- The block's next state after a command on drives or buffers. -/
def State.settled (s : State) (w : Work) : Host.Outcome State Fault Refusal := s.goOn (settle s.cfg w)

end Sys2Proof.Machine
end

