-- ==== Sys2Proof/Machine/Catalogue.lean ====
section
/-! DEFINITION. Requests that name a story or a volume: LIST and its frames (R42 to R45), OPEN and CREATE (R50 to R53),
KILL's checks (R39), BREAK (R71, R72) and the entry of a request in the queue (R109, R110). -/

namespace Sys2Proof.Machine

open Sys2Proof

/-! ### The request queue -/

/-- R110: the lowest free slot. -/
def Work.freeSlot (w : Work) : Option QSlot := allEntries.find? fun q => (w.entry q).isNone

/-- R109, R110: a request is entered in the lowest free slot, or refused QUEUE_FULL. -/
def Work.enter (w : Work) (env : Envelope) (job : Job) (d : DriveId) : Work :=
  match w.freeSlot with
  | some q =>
    { w with nextArrival := w.nextArrival + 1 }.setEntry q
      (some ⟨env.desk, env.tag, job, d, w.nextArrival, (w.drive d).vol == VolState.mounting, none⟩)
  | none => w.refuse env (jobKind job) .queueFull

/-- R109: the refusal of a queued request by the state of its drive. -/
def Work.queueTest (w : Work) (d : DriveId) (job : Job) : Option ResultCode :=
  if (w.drive d).enabled then
    match job with
    | .format _ _ _ | .remount => none
    | .read _ _ _ | .write _ _ _ | .file _ | .kill _ =>
      if (w.drive d).vol.present ∨ (w.drive d).vol = VolState.mounting then none else some .notMounted
  else some .noDrive

/-- R109: a queued request is tested against its drive and entered. -/
def Work.queueUp (w : Work) (env : Envelope) (job : Job) (d : DriveId) : Work :=
  match w.queueTest d job with
  | some code => w.refuse env (jobKind job) code
  | none => w.enter env job d

/-- R118, R184: the LOCKED refusal with its holder. -/
def Work.refuseLocked (w : Work) (env : Envelope) (k : ReqKind) (holder : Option DeskNo) : Work :=
  w.produceReply env.desk
    ⟨some k, env.tag, .locked, match holder with | some d => .locked d | none => .none⟩

/-- A refusal by a list of checks: the first that gives a code decides. -/
def firstRefusal : List (Bool × ResultCode) → Option ResultCode
  | [] => none
  | (true, code) :: _ => some code
  | (false, _) :: rest => firstRefusal rest

/-- R50, R53, R42: the refusals by the drive and its volume, in their order. -/
def Work.volumeRefusal (w : Work) (fieldsBad : Bool) (drive : Nat) : Option ResultCode :=
  match driveOf drive with
  | some d => firstRefusal
      [(fieldsBad, .badRequest), (!(w.drive d).enabled, .noDrive), (!(w.drive d).vol.present, .notMounted)]
  | none => some .badRequest

/-- R50, R53, R39: the refusal of a writing request by the volume state. -/
def VolState.writeRefusal : VolState → Option ResultCode
  | .writeProtected => some .writeProtected
  | .writeFaulted => some .writeFaulted
  | .absent | .mounting | .mounted | .foreign | .unreadable | .formatting => none

/-! ### LIST -/

/-- R42: whether a filter shows a basket. -/
def filterShows : BasketFilter → Nat → Bool
  | .all, _ => true
  | .only b, basket => b == basket

/-- R42: whether a filter is in range. -/
def filterInRange : BasketFilter → Bool
  | .all => true
  | .only b => b ≤ 63

/-- R43: whether a desk is shown a slot of a basket. -/
def mayList (cfg : Cfg) (desk : DeskNo) (f : BasketFilter) (basket : Nat) : Bool :=
  filterShows f basket && (grantFor cfg (cfg.cls desk) basket).mayRead

/-- R43: the entry of a slot, if it qualifies. -/
def Work.listEntry (cfg : Cfg) (w : Work) (desk : DeskNo) (d : DriveId) (f : BasketFilter) (m : Media)
    (i : CatSlot) : Option ListEntry :=
  match m.catalogue[i] with
  | .empty => none
  | .filed st _ => if mayList cfg desk f st.basket then some (.filed i st (w.holderOf d i)) else none
  | .reserved slug basket =>
    if mayList cfg desk f basket then some (.reserved i slug basket (w.holderOf d i)) else none
  | .damaged slug _ => some (.damaged i slug)

/-- R43: entries are collected until there are four; the rest is the first slot not examined. -/
def collect (entryOf : CatSlot → Option ListEntry) : List CatSlot → Nat → List ListEntry × Option CatSlot
  | [], _ => ([], none)
  | i :: _, 0 => ([], some i)
  | i :: rest, n + 1 =>
    match entryOf i with
    | some e => (e :: (collect entryOf rest n).1, (collect entryOf rest n).2)
    | none => collect entryOf rest (n + 1)

/-- R43: what the scan of a stream gives; a drive without a catalogue gives nothing (log 37). -/
def Work.scan (cfg : Cfg) (w : Work) (desk : DeskNo) (s : Stream) : List ListEntry × Option CatSlot :=
  match (w.drive s.drive).media with
  | some m => collect (w.listEntry cfg desk s.drive s.filter m) (catSlots.drop s.pos) 4
  | none => ([], none)

/-- R107: the code of an end-pending mark. -/
def EndMark.code : EndMark → Option ResultCode
  | .none => Option.none
  | .cancelled => some .cancelled
  | .volumeGone => some .volumeGone

/-- R43, R44, R45: a LIST frame is built: by the mark, or by the scan; the final one ends the stream, and so does a desk
that is not PRESENT. -/
def Work.buildFrame (cfg : Cfg) (w : Work) (desk : DeskNo) (tag : Nat) (s : Stream) : Work :=
  match s.mark.code with
  | some code => w.produceReply desk ⟨some .list, tag, code, .list true []⟩
  | none =>
    match w.scan cfg desk s with
    | (es, none) => w.produceReply desk ⟨some .list, tag, .ok, .list true es⟩
    | (es, some next) =>
      if (w.desk desk).presence = .present then
        (w.updDesk desk fun k =>
          { k with outstanding := some ⟨tag, some .list, some { s with pos := next.val }⟩ }).sendReply desk
          ⟨some .list, tag, .ok, .list false es⟩
      else w.updDesk desk fun k => { k with outstanding := none }

/-- R42: LIST. -/
def Work.list (cfg : Cfg) (w : Work) (env : Envelope) (drive : Nat) (f : BasketFilter) (start : Nat) : Work :=
  match w.volumeRefusal (!filterInRange f || decide (115 < start)) drive, driveOf drive with
  | some code, _ => w.refuse env .list code
  | none, some d => w.buildFrame cfg env.desk env.tag ⟨d, f, start, .none⟩
  | none, none => w

/-- R44: a frame of a LIST that is not final stands in the transmit queue. -/
def TxFrame.unfinished (desk : DeskNo) (f : TxFrame) : Bool :=
  f.desk == desk && match f.content with
    | .reply ⟨_, _, _, .list false _⟩ => true
    | _ => false

/-- R44: the next frame of a stream, once the previous one has left the transmit queue. -/
def Work.listNext (cfg : Cfg) (w : Work) (desk : DeskNo) : Work :=
  match (w.desk desk).outstanding with
  | some ⟨tag, _, some s⟩ =>
    if (w.line (lineOf desk)).frames.any (·.unfinished desk) then w else w.buildFrame cfg desk tag s
  | _ => w

/-! ### OPEN and CREATE -/

/-- R51: a new READ handle. -/
def Handle.forRead (desk : DeskNo) (d : DriveId) (slot : CatSlot) (version : Nat) : Handle :=
  { desk, drive := d, slot, mode := .read, state := .live, pin := some ⟨version, .catalogue⟩, base := none, readPos := 0,
    staging := none }

/-- R52, R53: a new check-out. -/
def Handle.forEdit (desk : DeskNo) (d : DriveId) (slot : CatSlot) (base : Option Nat) : Handle :=
  { desk, drive := d, slot, mode := .edit, state := .live, pin := none, base, readPos := 0,
    staging := some ⟨0, [], base.isNone⟩ }

/-- R46, R51, R52: a handle is entered and OPEN is replied, or it is refused NO_HANDLE. -/
def Work.issue (w : Work) (env : Envelope) (hd : Handle) (i : CatSlot) (st : Story) : Work :=
  match w.freeHandle env.desk with
  | some h => (w.setHandle h (some hd)).replyOk env .openStory (.opened h i st.basket st.version st.length)
  | none => w.refuse env .openStory .noHandle

/-- R50: the slug lookup of an OPEN. -/
def Work.openStory (w : Work) (env : Envelope) (drive : Nat) (slug : Chars)
    (accept : DriveId → CatSlot → Story → Option DeskNo → Work) : Work :=
  match w.volumeRefusal (!slugOk slug) drive, driveOf drive with
  | some code, _ => w.refuse env .openStory code
  | none, some d =>
    match (w.drive d).media with
    | some m => match m.lookup slug with
      | .filed i st k => accept d i st k
      | .damaged _ => w.refuse env .openStory .damaged
      | .reserved _ _ | .none => w.refuse env .openStory .noStory
    | none => w.refuse env .openStory .notMounted
  | none, none => w

/-- R50, R51: OPEN for READ. -/
def Work.openRead (cfg : Cfg) (w : Work) (env : Envelope) (drive : Nat) (slug : Chars) : Work :=
  w.openStory env drive slug fun d i st _ =>
    if (grantFor cfg (cfg.cls env.desk) st.basket).mayRead then
      w.issue env (Handle.forRead env.desk d i st.version) i st
    else w.refuse env .openStory .denied

/-- R48, R40: who holds a story: its check-out's desk, or the desk whose KILL is pending. -/
def Work.lockedBy (w : Work) (d : DriveId) (i : CatSlot) (killPending : Option DeskNo) : Option DeskNo :=
  (w.holderOf d i).or killPending

/-- R50, R52: OPEN for EDIT. -/
def Work.openEdit (cfg : Cfg) (w : Work) (env : Envelope) (drive : Nat) (slug : Chars) : Work :=
  w.openStory env drive slug fun d i st k =>
    match firstRefusal [(!(grantFor cfg (cfg.cls env.desk) st.basket).mayEdit, .denied),
        (closedFor cfg env.desk st.basket, .closed)] |>.or (w.drive d).vol.writeRefusal with
    | some code => w.refuse env .openStory code
    | none =>
      match w.lockedBy d i k with
      | some holder => w.refuseLocked env .openStory (some holder)
      | none => w.issue env (Handle.forEdit env.desk d i (some st.version)) i st

/-- R53: the refusals of a CREATE from the grant on. -/
def Work.createRefusal (cfg : Cfg) (w : Work) (env : Envelope) (d : DriveId) (m : Media) (slug : Chars)
    (basket : Nat) : Option ResultCode :=
  let taken := match m.lookup slug with
    | .filed _ _ _ | .reserved _ _ => true
    | .damaged _ | .none => false
  (firstRefusal [(!(grantFor cfg (cfg.cls env.desk) basket).mayCreate, .denied),
    (closedFor cfg env.desk basket, .closed)]).or
    ((w.drive d).vol.writeRefusal.or (firstRefusal [(taken, .exists_), (m.lowestEmpty.isNone, .catalogueFull)]))

/-- R32, R53: the lowest EMPTY slot is reserved and its check-out entered. -/
def Work.reserve (w : Work) (env : Envelope) (d : DriveId) (m : Media) (slug : Chars) (basket : Nat) : Work :=
  match m.lowestEmpty, w.freeHandle env.desk with
  | some i, some h =>
    ((w.updMedia d (·.setSlot i (.reserved slug basket))).setHandle h (some (Handle.forEdit env.desk d i none))).replyOk
      env .create (.created h i)
  | none, _ => w.refuse env .create .catalogueFull
  | _, none => w.refuse env .create .noHandle

/-- R53: CREATE. -/
def Work.create (cfg : Cfg) (w : Work) (env : Envelope) (drive : Nat) (slug : Chars) (basket : Nat) : Work :=
  match w.volumeRefusal (!slugOk slug || decide (63 < basket)) drive, driveOf drive with
  | some code, _ => w.refuse env .create code
  | none, some d =>
    match (w.drive d).media with
    | some m => match w.createRefusal cfg env d m slug basket with
      | some code => w.refuse env .create code
      | none => w.reserve env d m slug basket
    | none => w.refuse env .create .notMounted
  | none, none => w

/-! ### KILL -/

/-- R39: what checks 5 to 9 of a KILL give: nothing, a refusal, or LOCKED with the holder. -/
inductive KillTest where
  | passes (slot : CatSlot) (story : Story)
  | refused (code : ResultCode)
  | locked (holder : Option DeskNo)
  deriving DecidableEq, Repr

/-- R39: checks 5 to 9 of a KILL. -/
def Work.killTest (cfg : Cfg) (w : Work) (desk : DeskNo) (d : DriveId) (m : Media) (slug : Chars) : KillTest :=
  match m.lookup slug with
  | .none => .refused .noStory
  | .damaged _ => .refused .damaged
  | .reserved i _ => .locked (w.holderOf d i)
  | .filed i st _ =>
    match firstRefusal [(!(grantFor cfg (cfg.cls desk) st.basket).mayEdit, .denied),
        (closedFor cfg desk st.basket, .closed)] |>.or (w.drive d).vol.writeRefusal with
    | some code => .refused code
    | none => match w.holderOf d i with
      | some holder => .locked (some holder)
      | none => .passes i st

/-- R39: KILL at intake. -/
def Work.kill (cfg : Cfg) (w : Work) (env : Envelope) (drive : Nat) (slug : Chars) : Work :=
  match slugOk slug, driveOf drive with
  | true, some d =>
    match w.queueTest d (.kill slug), (w.drive d).media with
    | some code, _ => w.refuse env .kill code
    | none, some m =>
      match w.killTest cfg env.desk d m slug with
      | .passes _ _ => w.enter env (.kill slug) d
      | .refused code => w.refuse env .kill code
      | .locked holder => w.refuseLocked env .kill holder
    | none, none => w.enter env (.kill slug) d
  | _, _ => w.refuse env .kill .badRequest

/-! ### BREAK -/

/-- R31, R71: the slot that a BREAK looks at. -/
def Lookup.slot? : Lookup → Option CatSlot
  | .filed i _ _ => some i
  | .reserved i _ => some i
  | .damaged _ | .none => Option.none

/-- R72: the check-out is taken from its holder. -/
def Work.takeCheckOut (w : Work) (env : Envelope) (h : HandleIx) (hd : Handle) : Work :=
  let w := match w.entryNaming h with
    | some (q, _) => w.endRequest q .broken .none
    | none => w
  (((w.releaseStaging h false).defunct h .broken).notify hd.desk (.broken h env.desk)).replyOk env .breakIt (.broken hd.desk)

/-- R71: BREAK. -/
def Work.breakCheckOut (w : Work) (env : Envelope) (drive : Nat) (slug : Chars) : Work :=
  match w.volumeRefusal (!slugOk slug) drive, driveOf drive with
  | some code, _ => w.refuse env .breakIt code
  | none, some d =>
    match ((w.drive d).media.bind fun m => (m.lookup slug).slot?).bind (w.checkOutOf d) with
    | some h => match w.handle h with
      | some hd => if w.filing h then w.refuse env .breakIt .inProgress else w.takeCheckOut env h hd
      | none => w
    | none => w.refuse env .breakIt .noStory
  | none, none => w

end Sys2Proof.Machine
end

