-- ==== Sys2Proof/Machine/Handles.lean ====
section
/-! DEFINITION. Requests that name a handle: the common checks (R49), READ (R54, R55, R130), WRITE (R57), FILE (R61),
DISCARD (R69) and CLOSE (R70, R76); and CANCEL (R121 to R123). -/

namespace Sys2Proof.Machine

open Sys2Proof

/-! ### The common checks -/

/-- R49: a request that names a handle: its fields, the handle, and a DEFUNCT handle's one answer, which frees it. -/
def Work.withHandle (w : Work) (env : Envelope) (k : ReqKind) (n : Nat) (fieldsOk : Bool)
    (go : HandleIx → Handle → Work) : Work :=
  match fieldsOk, handleOf n with
  | true, some h =>
    match w.handle h with
    | some hd =>
      if hd.desk = env.desk then
        match hd.state with
        | .defunct c => if k = .close then (w.freeEntry h).replyOk env k .none else (w.freeEntry h).refuse env k (causeResult c)
        | .live | .frozen => go h hd
      else w.refuse env k .badHandle
    | none => w.refuse env k .badHandle
  | _, _ => w.refuse env k .badRequest

/-- R49: the greatest count of a READ and length of a WRITE, by the form. -/
def formLimit : Form → Nat
  | .packed => 192
  | .text => 48

/-- R49: an offset is at most 32,768. -/
def offsetOk (offset : Nat) : Bool := offset ≤ Config.maxStory

/-! ### READ -/

/-- R55: a READ answered at intake moves the read position. -/
def Work.readAnswer (w : Work) (env : Envelope) (h : HandleIx) (offset : Nat) (data : Chars) : Work :=
  (w.updHandle h fun x => { x with readPos := offset + data.length }).replyOk env .read (.read offset data)

/-- R54, R108, R130: a READ is answered at intake past the end or from the buffers, and is queued otherwise. -/
def Work.read (w : Work) (env : Envelope) (n count : Nat) (offset : Option Nat) : Work :=
  w.withHandle env .read n (1 ≤ count && count ≤ formLimit env.form && offset.all offsetOk) fun h hd =>
    let from_ := offset.getD hd.readPos
    let version := w.versionOf hd
    if version.1 ≤ from_ then w.readAnswer env h from_ []
    else
      let pieces := readPieces version.2 version.1 from_ count
      match w.validPieces hd.drive pieces with
      | some bytes => (w.touchPieces hd.drive pieces).readAnswer env h from_ bytes
      | none => w.queueUp env (.read h offset count) hd.drive

/-! ### WRITE, FILE, DISCARD, CLOSE -/

/-- R57: the refusals of a WRITE at intake. -/
def writeRefusal (hd : Handle) (offset count : Nat) : Option ResultCode :=
  firstRefusal [(hd.mode == .read, .wrongMode), (hd.state == .frozen, .frozen),
    (hd.staging.all fun st => offset != st.length, .offset), (decide (Config.maxStory < offset + count), .tooLong)]

/-- R57: WRITE at intake. -/
def Work.write (w : Work) (env : Envelope) (n offset : Nat) (data : Chars) : Work :=
  w.withHandle env .write n (1 ≤ data.length && data.length ≤ formLimit env.form && offsetOk offset) fun h hd =>
    match writeRefusal hd offset data.length with
    | some code => w.refuse env .write code
    | none => w.queueUp env (.write h offset data) hd.drive

/-- R61: FILE at intake. -/
def Work.file (w : Work) (env : Envelope) (n : Nat) : Work :=
  w.withHandle env .file n true fun h hd =>
    match firstRefusal [(hd.mode == .read, .wrongMode), (hd.state == .frozen, .frozen)] with
    | some code => w.refuse env .file code
    | none => w.queueUp env (.file h) hd.drive

/-- R69: DISCARD. -/
def Work.discard (w : Work) (env : Envelope) (n : Nat) : Work :=
  w.withHandle env .discard n true fun h hd =>
    if hd.mode = .read then w.refuse env .discard .wrongMode
    else ((w.releaseStaging h false).freeEntry h).replyOk env .discard .none

/-- R76: a record loses a pin; with its last one its blocks are FREE and it is removed. -/
def Work.unpin (w : Work) (r : RecIx) : Work :=
  match w.record r with
  | some x =>
    if x.pins ≤ 1 then (w.setRecord r none).updMedia x.drive (·.mark (blocksOf x.extents) .free)
    else w.setRecord r (some { x with pins := x.pins - 1 })
  | none => w

/-- R70: the pin of a READ handle is released. -/
def Work.releasePin (w : Work) (hd : Handle) : Work :=
  match hd.pin with
  | some ⟨_, .record r⟩ => w.unpin r
  | _ => w

/-- R70: CLOSE. -/
def Work.close (w : Work) (env : Envelope) (n : Nat) : Work :=
  w.withHandle env .close n true fun h hd =>
    if hd.mode = .edit then w.refuse env .close .wrongMode
    else ((w.releasePin hd).freeEntry h).replyOk env .close .none

/-! ### CANCEL -/

/-- R45: a stream is marked CANCELLED, unless it is marked. -/
def Work.cancelStream (w : Work) (desk : DeskNo) (o : Outstanding) (s : Stream) : Work :=
  if s.mark = .none then
    w.updDesk desk fun k => { k with outstanding := some { o with stream := some { s with mark := .cancelled } } }
  else w

/-- R110: the queued request of a desk. -/
def Work.entryOf (w : Work) (desk : DeskNo) : Option (QSlot × Entry) :=
  allEntries.findSome? fun q => match w.entry q with
    | some e => if e.desk = desk then some (q, e) else none
    | none => none

/-- R110: the cancel noted mark is set. -/
def Work.noteCancel (w : Work) (q : QSlot) : Work :=
  w.setEntry q ((w.entry q).map fun e => { e with active := e.active.map fun a => { a with cancelNoted := true } })

/-- R22, R123: whether a FORMAT_TRACK of the FORMAT has begun. -/
def Drive.formatBegun (dr : Drive) (q : QSlot) : Bool :=
  dr.current.any fun op => op.origin == .request q && op.kind == .formatTrack

/-- R123: the FORMAT_TRACKs of tracks later than the one in progress. -/
def laterTrack (dr : Drive) (q : QSlot) (op : Op) : Bool :=
  op.origin == .request q && !op.transferring && dr.current.any (·.track != op.track)

/-- R22, R123: a CANCEL that finds a FORMAT ACTIVE: it ends at once before its first track, stops at the end of the
track in progress, and goes on once its last track-side has begun (log 25). -/
def Work.cancelFormat (w : Work) (q : QSlot) (d : DriveId) (sides : Nat) (p : FormatProgress) : Work :=
  if 77 * sides ≤ p.ended then w
  else if (w.drive d).formatBegun q then
    if p.ended + 1 = 77 * sides then w
    else (w.removeOps d (laterTrack (w.drive d) q)).noteCancel q
  else w.endFormat d q .foreign .cancelled

/-- R123: a CANCEL that finds a READ, WRITE, FILE or KILL ACTIVE. -/
def Work.cancelWork (w : Work) (q : QSlot) : Work :=
  if w.ownTransfer q then
    (((w.removeOwn q).leaveWait (.request q)).letGo (.request q)).noteCancel q
  else w.endCancelled q

/-- R122, R123: a CANCEL that finds a queued request. -/
def Work.cancelEntry (w : Work) (q : QSlot) (e : Entry) : Work :=
  match e.job, e.active with
  | .remount, _ => w
  | _, none => w.endRequest q .cancelled .none
  | .format _ _ sides, some a =>
    match a.cancelNoted, a.progress with
    | false, .format p => w.cancelFormat q e.drive sides p
    | _, _ => w
  | .read _ _ _, some a | .write _ _ _, some a | .file _, some a | .kill _, some a =>
    if a.cancelNoted then w else w.cancelWork q

/-- R121: CANCEL. -/
def Work.cancel (w : Work) (desk : DeskNo) : Work :=
  match (w.desk desk).outstanding with
  | none => w
  | some o => match o.stream with
    | some s => w.cancelStream desk o s
    | none => match w.entryOf desk with
      | some (q, e) => w.cancelEntry q e
      | none => w

end Sys2Proof.Machine
end

