-- ==== Sys2Proof/Machine/Schedule.lean ====
section
/-! DEFINITION. The scheduler: lanes (R99, R113), the choice of a request (R113), the checks at dispatch (R114) and the
first operations of each kind (R116); and the steps of a FILE and a FORMAT that follow (R63, R64, R21). -/

namespace Sys2Proof.Machine

open Sys2Proof

/-! ### Lanes -/

/-- R99: the basket of a handle's request. -/
def Work.handleBasket (w : Work) (hd : Handle) : Option Nat :=
  match hd.mode, hd.pin with
  | .edit, _ => (w.slotOf hd).basket?
  | .read, some ⟨_, .catalogue⟩ => (w.slotOf hd).basket?
  | .read, _ => none

/-- R99: the basket of a waiting request. -/
def Work.jobBasket (w : Work) (e : Entry) : Option Nat :=
  match e.job with
  | .read h _ _ | .write h _ _ | .file h => (w.handle h).bind w.handleBasket
  | .kill slug => match (w.drive e.drive).media with
    | some m => match m.lookup slug with
      | .filed _ st _ => some st.basket
      | .reserved _ _ | .damaged _ | .none => none
    | none => none
  | .format _ _ _ | .remount => none

/-- R99: the lane of a request at its dispatch. -/
def Work.laneOf (cfg : Cfg) (w : Work) (e : Entry) : Lane :=
  if cfg.cls e.desk = .slot ∨ (w.jobBasket e).any (basketWarning cfg) = true then .urgent else .ordinary

/-- R112: whether a waiting request may be taken. -/
def Work.mayTake (w : Work) (e : Entry) : Bool :=
  e.active.isNone && ((w.drive e.drive).vol.present || match e.job with
    | .format _ _ _ | .remount => true
    | .read _ _ _ | .write _ _ _ | .file _ | .kill _ => false)

/-- R113: the waiting requests of a drive that may be taken, in a lane. -/
def Work.candidates (cfg : Cfg) (w : Work) (d : DriveId) (l : Lane) : List (QSlot × Entry) :=
  allEntries.filterMap fun q => match w.entry q with
    | some e => if e.drive = d ∧ w.mayTake e = true ∧ w.laneOf cfg e = l then some (q, e) else none
    | none => none

/-- The entry of the least value of a measure. -/
def least (f : Entry → Nat) : List (QSlot × Entry) → Option (QSlot × Entry)
  | [] => none
  | x :: xs => match least f xs with
    | some y => if f x.2 ≤ f y.2 then some x else some y
    | none => some x

/-- R113: how far a desk lies after the round-robin pointer; the pointer's own desk comes last. -/
def turnAfter (pointer : DeskNo) (e : Entry) : Nat := (e.desk.val + 31 - pointer.val) % 32

/-- R113: the lane and the request that a drive takes. -/
def Work.choose (cfg : Cfg) (w : Work) (d : DriveId) : Option (Lane × QSlot × Entry) :=
  let urgent := w.candidates cfg d .urgent
  let ordinary := w.candidates cfg d .ordinary
  if urgent ≠ [] ∧ ((w.drive d).lastLane = .ordinary ∨ ordinary = []) then
    (least (·.arrival) urgent).map fun x => (.urgent, x)
  else (least (turnAfter (w.drive d).pointer) ordinary).map fun x => (.ordinary, x)

/-- R114: the drive's fields after a dispatch. -/
def Drive.served (dr : Drive) (l : Lane) (desk : DeskNo) : Drive :=
  { dr with lastLane := l, pointer := if l = .ordinary then desk else dr.pointer }

/-- R114: the request taken becomes ACTIVE. -/
def Work.activate (w : Work) (d : DriveId) (l : Lane) (q : QSlot) (e : Entry) : Work :=
  (w.setEntry q (some { e with active := some ⟨l, false, .run, .plain⟩ })).updDrive d fun dr => dr.served l e.desk

/-! ### The kinds -/

/-- R54, R130: a READ begins. -/
def Work.startRead (w : Work) (q : QSlot) (h : HandleIx) (offset : Option Nat) (count : Nat) : Work :=
  match w.handle h with
  | some hd =>
    let from_ := offset.getD hd.readPos
    let version := w.versionOf hd
    w.setProgress q (.read from_ (readPieces version.2 version.1 from_ count) [])
  | none => w

/-- R58: a WRITE that needs a new block takes one, or is refused. -/
def Work.startNewBlock (w : Work) (q : QSlot) (h : HandleIx) (hd : Handle) (st : Staging) (m : Media) : Work :=
  match m.allocate with
  | none => w.endPlain q .volumeFull .none
  | some (b, m') =>
    match addBlock st.extents b with
    | some xs => ((w.updMedia hd.drive fun _ => m').setExtents h xs).setProgress q (.write false (some b))
    | none => (w.updMedia hd.drive fun _ => m'.giveBack b).endPlain q .fragmented .none

/-- R58: a WRITE begins. -/
def Work.startWrite (w : Work) (q : QSlot) (h : HandleIx) (data : Chars) : Work :=
  match w.stagingOf h with
  | some (hd, st) =>
    if hd.state = .frozen then w.endPlain q .frozen .none
    else if needsBlock st.length data.length then
      match (w.drive hd.drive).media with
      | some m => w.startNewBlock q h hd st m
      | none => w
    else w.setProgress q (.write false none)
  | none => w

/-- R61, R62: a FILE begins with its flush barrier. -/
def Work.startFile (w : Work) (q : QSlot) (h : HandleIx) : Work :=
  match w.stagingOf h with
  | some (hd, st) =>
    if hd.state = .frozen then w.endPlain q .frozen .none
    else if hd.base = some Config.maxVersion then w.endPlain q .versionLimit .none
    else (w.barrier q (w.stagedBuffers hd.drive st)).setPlace q .barrier
  | none => w

/-- R34, R146: the catalogue write of a slot for a request. -/
def catalogueOp (q : QSlot) (i : CatSlot) : Op :=
  ⟨.catalogueWrite, catalogueTrack (i.val / 4), 0, none, .entry (i.val / 4) i, .request q, false⟩

/-- R40: a KILL that passes puts its mark and queues its catalogue write. -/
def Work.markKill (w : Work) (q : QSlot) (d : DriveId) (desk : DeskNo) (i : CatSlot) (st : Story) : Work :=
  ((w.updMedia d (·.setSlot i (.filed st (some desk)))).append d (catalogueOp q i)).setPlace q .catalogue

/-- R40: a KILL that was checked at intake is checked again. -/
def Work.killAgain (w : Work) (d : DriveId) (m : Media) (slug : Chars) : KillTest :=
  match m.lookup slug with
  | .filed i st _ => match w.holderOf d i with
    | some holder => .locked (some holder)
    | none => .passes i st
  | .reserved _ _ | .damaged _ | .none => .refused .noStory

/-- R40: a KILL begins; one that waited through a mount is checked under R39. -/
def Work.startKill (cfg : Cfg) (w : Work) (q : QSlot) (e : Entry) (slug : Chars) : Work :=
  match (w.drive e.drive).media with
  | some m =>
    match if e.throughMount then w.killTest cfg e.desk e.drive m slug else w.killAgain e.drive m slug with
    | .passes i st => w.markKill q e.drive e.desk i st
    | .refused code => w.endPlain q code .none
    | .locked holder => w.endPlain q .locked (match holder with | some h => .locked h | none => .none)
  | none => w

/-- R19: the refusals of a FORMAT at its dispatch. -/
def Work.formatRefusal (w : Work) (d : DriveId) : Option ResultCode :=
  let vol := (w.drive d).vol
  firstRefusal [(vol == .absent, .notMounted), (w.handlesOn d (!·.isDefunct) != [], .inUse),
    (vol == .writeFaulted, .writeFaulted), (vol == .writeProtected || (w.drive d).protectLine, .writeProtected)]

/-- R19, R20: a FORMAT begins. -/
def Work.beginFormat (w : Work) (q : QSlot) (d : DriveId) : Work :=
  match w.formatRefusal d with
  | some code => w.endPlain q code .none
  | none =>
    ((((w.startFormat d q).setProgress q (.format ⟨0, 0, [], none⟩)).setPlace q .formatting).append d
      ⟨.recalibrate, 0, 0, none, .none, .request q, false⟩).topUp Config.ownOps q

/-- R23 step 2, R159: a FAULTED drive leaves FAULTED. -/
def Drive.unfault (dr : Drive) : Drive :=
  if dr.mech = .faulted then { dr with mech := .unloaded, head := none, indexWatch := some Config.indexWatchMs } else dr

/-- R23: a REMOUNT. -/
def Work.beginRemount (w : Work) (q : QSlot) (d : DriveId) : Work :=
  let w := (w.teardown d (some q) true).updDrive d Drive.unfault
  if (w.drive d).takenLevel then (w.startMount d).setPlace q .mounting
  else (w.setVol d .absent).endPlain q .ok (.remounted .absent)

/-- R114, R116: the request that was made ACTIVE is checked again and begins. -/
def Work.start (cfg : Cfg) (w : Work) (q : QSlot) (e : Entry) : Work :=
  match e.job with
  | .read h offset count => w.startRead q h offset count
  | .write h _ data => w.startWrite q h data
  | .file h => w.startFile q h
  | .kill slug => w.startKill cfg q e slug
  | .format _ _ _ => w.beginFormat q e.drive
  | .remount => w.beginRemount q e.drive

/-- R112, R180: whether a drive may dispatch. -/
def Work.mayDispatch (w : Work) (d : DriveId) : Bool :=
  (w.drive d).enabled && !w.restarting && (w.activeOf d).isNone && (w.drive d).vol != .mounting

/-- R112, R113, R114: a drive dispatches, where it may. -/
def Work.dispatch (cfg : Cfg) (w : Work) (d : DriveId) : Work :=
  if w.mayDispatch d then
    match w.choose cfg d with
    | some (l, q, e) => (w.activate d l q e).start cfg q e
    | none => w
  else w

/-! ### The later steps of a FILE and a FORMAT -/

/-- R63: the label step of a FILE. -/
def Work.labelStep (w : Work) (d : DriveId) : Work :=
  match w.activeOf d, (w.drive d).media with
  | some (q, _, ⟨_, false, .barrierDone, _⟩), some m =>
    if m.additions = [] then w.setPlace q .labelDone
    else (w.append d ⟨.labelWrite, 0, 0, none, .none, .request q, false⟩).setPlace q .label
  | _, _ => w

/-- R64: the catalogue step of a FILE. -/
def Work.catalogueStep (w : Work) (d : DriveId) : Work :=
  match w.activeOf d with
  | some (q, ⟨_, _, .file h, _, _, _, _⟩, ⟨_, false, .labelDone, _⟩) =>
    match w.handle h with
    | some hd => (w.append d (catalogueOp q hd.slot)).setPlace q .catalogue
    | none => w
  | _ => w

/-- R21: the record writes of a FORMAT begin after its last track-side. -/
def Work.formatRecords (w : Work) (d : DriveId) : Work :=
  match w.activeOf d with
  | some (q, ⟨_, _, .format _ _ sides, _, _, _, _⟩, ⟨_, false, _, .format p⟩) =>
    if p.ended = 77 * sides ∧ p.records = none then
      (w.setProgress q (.format { p with records := some (0, 0) })).topUp Config.ownOps q
    else w
  | _ => w

/-! ### The wait list -/

/-- R128: the track-side that a waiting party needs. -/
def Work.partyKey (w : Work) (p : Party) : Option TrackKey :=
  match p with
  | .request q => match w.entry q with
    | some ⟨_, _, job, d, _, _, some a⟩ =>
      match job, a.progress with
      | .read _ _ _, .read _ (piece :: _) _ => some (keyOf d (w.sides d) piece.block)
      | .write h _ data, .write tailPlaced newBlock =>
        ((w.stagingOf h).bind fun x => writeTarget x.2 data tailPlaced newBlock).map fun t => keyOf d (w.sides d) t.2
      | _, _ => none
    | _ => none
  | .mount d => some ⟨d, 0, 0⟩
  | .relocation b => match (w.buffer b).key, (w.buffer b).reloc with
    | some key, some r => some (keyOf key.drive (w.sides key.drive) r.replacement)
    | _, _ => none

/-- R128: a waiter is served. -/
def Work.serveWaiter (p : Party) (w : Work) : Work :=
  match w.partyKey p with
  | some key => w.askNow p key
  | none => w.leaveWait p

/-- R128: the waiters are served in the order of the list (log 31), and nothing that came before is due any more (log
40). -/
def Work.serveWaiters (w : Work) : Work :=
  if w.waitList = [] then w else { w with poolDue := false }.each w.waitList Work.serveWaiter

/-! ### The idle flush -/

/-- R138: one housekeeping WRITE_SECTORS for each READY buffer of the drive with DIRTY sectors. -/
def Work.idleFlush (w : Work) (d : DriveId) : Work :=
  w.each (w.buffersWhere fun b => (w.buffer b).key.any (·.drive == d) && (w.buffer b).state == .ready
      && (w.buffer b).dirtySet != []) fun b w => w.flush b .idleFlush

end Sys2Proof.Machine
end

