-- ==== Sys2Proof/Machine/Editions.lean ====
section
/-! DEFINITION. The edition clock: changes of state (R100 to R103), EDITION (R91, R96, R97), CLOCK (R95), the minute expiry
(R94) and the access rule table (R83). -/

namespace Sys2Proof.Machine

open Sys2Proof

/-! ### A change of state -/

/-- R97, R100 steps 1 and 2: an entry brought to its derived state, its pending list applied where it enters SCHEDULED
or DISABLED from WARNING or CLOSED. -/
def Edition.bring (e : Edition) (c : Clock) : Edition :=
  let new := e.derived c
  let applies := (e.state == .warning || e.state == .closed) && (new == .scheduled || new == .disabled)
  match applies, e.pendingBaskets with
  | true, some bs => { e with state := new, baskets := bs, pendingBaskets := none }
  | _, _ => { e with state := new }

/-- R100 step 1: the table with the entries concerned at their derived states. -/
def bringAll (cfg : Cfg) (concerned : Fin 6 → Bool) : Cfg :=
  { cfg with editions := Vector.ofFn fun i =>
      if concerned i then (cfg.editions[i]).bring cfg.clock else cfg.editions[i] }

/-- R100 step 1: the entries that entered a state, in ascending order. -/
def entered (old new : Cfg) (st : EditionState) : List Edition :=
  (List.finRange 6).filterMap fun i =>
    if (new.editions[i]).state = st ∧ (old.editions[i]).state ≠ st then some new.editions[i] else none

/-- R100 step 1: whether any entry left CLOSED. -/
def leftClosed (old new : Cfg) : Bool :=
  (List.finRange 6).any fun i => (old.editions[i]).state == .closed && (new.editions[i]).state != .closed

/-- Whether the basket of a handle's slot satisfies a test. -/
def Work.slotBasketIs (w : Work) (hd : Handle) (p : Nat → Bool) : Bool := (w.slotOf hd).basket?.any p

/-- R101: a check-out of an entry that enters CLOSED freezes, unless its holder is SLOT. -/
def freezeOne (cfg : Cfg) (e : Edition) (h : HandleIx) (w : Work) : Work :=
  match w.handle h with
  | some hd =>
    if hd.mode = .edit ∧ hd.state = .live ∧ w.slotBasketIs hd e.baskets.contains = true ∧ cfg.cls hd.desk ≠ .slot then
      (w.setHandle h (some { hd with state := .frozen })).notify hd.desk (.closed e.name h)
    else w
  | none => w

/-- R102: a FROZEN check-out whose basket is no longer closed becomes OPEN. -/
def thawOne (cfg : Cfg) (h : HandleIx) (w : Work) : Work :=
  match w.handle h with
  | some hd =>
    if hd.state = .frozen ∧ w.slotBasketIs hd (basketClosed cfg) = false then
      (w.setHandle h (some { hd with state := .live })).notify hd.desk (.reopened h)
    else w
  | none => w

/-- R103: the minutes left to the close. -/
def minutesLeft (c : Clock) (e : Edition) : Nat :=
  match c with
  | .running m => forward m e.close
  | .unset => 0

/-- R103: the holder of an OPEN check-out of an entry that enters WARNING is warned. -/
def warnOne (cfg : Cfg) (e : Edition) (h : HandleIx) (w : Work) : Work :=
  match w.handle h with
  | some hd =>
    if hd.mode = .edit ∧ hd.state = .live ∧ w.slotBasketIs hd e.baskets.contains = true then
      w.notify hd.desk (.warning e.name (minutesLeft cfg.clock e) h)
    else w
  | none => w

/-- R100 steps 4 to 6. -/
def editionEffects (old new : Cfg) (w : Work) : Work :=
  let w := w.each (entered old new .closed) fun e w => w.each allHandles (freezeOne new e)
  let w := if leftClosed old new then w.each allHandles (thawOne new) else w
  w.each (entered old new .warning) fun e w => w.each allHandles (warnOne new e)

/-- R100: the entries concerned are brought to their derived states with all effects. -/
def changeEditions (cfg : Cfg) (concerned : Fin 6 → Bool) (w : Work) : Cfg × Work :=
  (bringAll cfg concerned, editionEffects cfg (bringAll cfg concerned) w)

/-! ### EDITION and CLOCK -/

/-- R91, R83: an index as an entry number. -/
def entryIndex (n size : Nat) : Option (Fin size) := if h : n < size then some ⟨n, h⟩ else none

/-- R91: EDITION with an index alone. -/
def Work.editionRead (cfg : Cfg) (w : Work) (env : Envelope) (index : Nat) : Work :=
  match entryIndex index 6 with
  | some i => w.replyOk env .edition (.edition cfg.editions[i])
  | none => w.refuse env .edition .badRequest

/-- R97: the basket list given is dealt with by the entry's state before the write. -/
def Edition.dealBaskets (e : Edition) (given : List Nat) : Edition :=
  match e.state with
  | .disabled | .scheduled => { e with baskets := given }
  | .warning | .closed => { e with pendingBaskets := if given = e.baskets then none else some given }

/-- R96 steps 1 and 2: the fields replaced. -/
def Edition.write (e : Edition) (f : EditionFields) : Edition :=
  { e.dealBaskets f.baskets with
    name := f.name, enabled := f.enabled == 1, close := f.close, reopen := f.reopen, lead := f.lead }

/-- R91, R96: a writing EDITION. -/
def Work.editionWrite (cfg : Cfg) (w : Work) (env : Envelope) (index : Nat) (f : EditionFields) : Cfg × Work :=
  match EditionFields.inRange f, entryIndex index 6 with
  | true, some i =>
    let written := { cfg with editions := cfg.editions.set i ((cfg.editions[i]).write f) }
    let done := changeEditions written (· == i) w
    (done.1, done.2.replyOk env .edition (.edition done.1.editions[i]))
  | _, _ => (cfg, w.refuse env .edition .badRequest)

/-- R95: CLOCK. -/
def Work.setClock (cfg : Cfg) (w : Work) (env : Envelope) (minute : Nat) : Cfg × Work :=
  if minute ≤ 1439 then
    let done := changeEditions { cfg with clock := .running minute, minuteInterval := some Config.minuteIntervalS }
      (fun _ => true) w
    (done.1, done.2.replyOk env .clock (.clock minute cfg.clock))
  else (cfg, w.refuse env .clock .badRequest)

/-- R92, R94: the minute expiry of a RUNNING clock. -/
def minuteStep (cfg : Cfg) (w : Work) : Cfg × Work :=
  match cfg.clock with
  | .running m =>
    changeEditions { cfg with clock := .running ((m + 1) % 1440), minuteInterval := some Config.minuteIntervalS }
      (fun _ => true) w
  | .unset => (cfg, w)

/-! ### RULE -/

/-- R83: RULE with an index alone. -/
def Work.ruleRead (cfg : Cfg) (w : Work) (env : Envelope) (index : Nat) : Work :=
  match entryIndex index 16 with
  | some i => w.replyOk env .rule (.rule cfg.rules[i])
  | none => w.refuse env .rule .badRequest

/-- R83: a writing RULE. -/
def Work.ruleWrite (cfg : Cfg) (w : Work) (env : Envelope) (index : Nat) (f : RuleFields) : Cfg × Work :=
  match RuleFields.entry? f, entryIndex index 16 with
  | some r, some i => ({ cfg with rules := cfg.rules.set i r }, w.replyOk env .rule (.rule r))
  | _, _ => (cfg, w.refuse env .rule .badRequest)

end Sys2Proof.Machine
end

