-- ==== Sys2Proof/Machine/Settings.lean ====
section
/-! DEFINITION. Settings, status and restart: SET and QUERY (R176 to R178, R81), the disabling and enabling of lines and
drives (R173, R174, R178), notice admission (R120), STATUS (R179), LINE_STATUS (R175) and RESTART (R180). -/

namespace Sys2Proof.Machine

open Sys2Proof

/-! ### Admission of notices -/

/-- R120: the desks of a line in the order of admission, after the drop last admitted. -/
def turnOrder (l : LineId) (last : Nat) : List DeskNo := (List.range 8).map fun i => deskOf l ((last + i) % 8 + 1)

/-- R120: one notice is admitted, where one may be. -/
def Work.admitOne (w : Work) (l : LineId) : Option Work :=
  let line := w.line l
  if line.tx.length ≤ Config.admissionRoom then
    let ready := (turnOrder l line.dropLastAdmitted).find? fun k =>
      (w.desk k).presence == .present && (w.desk k).notices != []
    match ready with
    | some k => match (w.desk k).notices with
      | n :: rest =>
        some ((w.updDesk k fun x => { x with notices := rest, noticesDropped := false }).updLine l fun x =>
          { x.push ⟨k, .notice (w.desk k).noticesDropped n⟩ with dropLastAdmitted := dropOf k })
      | [] => none
    | none => none
  else none

/-- R120: notices are admitted one at a time until the queue holds four frames or none is left. -/
def Work.admitUpTo : Nat → LineId → Work → Work
  | 0, _, w => w
  | n + 1, l, w =>
    match w.admitOne l with
    | some w' => Work.admitUpTo n l w'
    | none => w

/-- R120: admission tried on a line; four admissions fill it. -/
def Work.admitAll (w : Work) (l : LineId) : Work := w.admitUpTo 4 l

/-! ### Lines -/

/-- 00: the desks of a line. -/
def desksOf (l : LineId) : List DeskNo := (List.range 8).map fun i => deskOf l (i + 1)

/-- R173: a desk of a line that is disabled. -/
def Desk.cutOff (k : Desk) : Desk :=
  { k with presence := .unknown, missCount := 0,
           outstanding := match k.outstanding with
             | some o => if o.stream.isSome then none else some o
             | none => none }

/-- R173: the line's own fields when it is disabled. -/
def Line.disable (x : Line) : Line :=
  { x with enabled := false, judgement := .disabled, rx := .hunting, rxChars := [], rxFrame := none, rxDropped := false,
           tx := [], txWait := [], sending := [], pollOut := [],
           poll := { x.poll with state := .ready, timer := none }, negation := none }

/-- R173: a line is disabled. -/
def Work.disableLine (w : Work) (l : LineId) : Work :=
  (w.updLine l Line.disable).each (desksOf l) fun k w => w.updDesk k Desk.cutOff

/-- R174: the line's own fields when it is enabled. -/
def Line.enable (x : Line) : Line :=
  { x with enabled := true, judgement := .unjudged, rx := .hunting, rxChars := [], rxFrame := none, rxDropped := false,
           tx := [], txWait := [], sending := [], pollOut := [],
           poll := ⟨.ready, x.drops.headD 1, 0, none⟩,
           negation := if x.format ≠ .f9M ∧ x.deskReady = false then some Config.negationMs else none }

/-- R174: a line is enabled, and admission is tried (R120). -/
def Work.enableLine (w : Work) (l : LineId) : Work :=
  let w := w.updLine l Line.enable
  let w := if (w.line l).format ≠ .f9M ∧ (w.line l).deskReady = true then
      w.updDesk (deskOf l 1) fun k => { k with presence := .present }
    else w
  w.admitAll l

/-! ### Drives -/

/-- R178, R6, R141: a drive is disabled: it is NOT_READY, and its volume is torn down to ABSENT. -/
def Work.disableDrive (w : Work) (d : DriveId) : Work :=
  let w := (w.notReady d).updDrive d fun dr => { dr with enabled := false, takenLevel := false, debounce := none }
  (w.teardown d none true).setVol d .absent

/-- R178, R6: a drive is enabled; with its ready line high the debounce starts. -/
def Work.enableDrive (w : Work) (d : DriveId) : Work :=
  w.updDrive d fun dr =>
    { dr with enabled := true, debounce := if dr.readyLine then some Config.debounceMs else none }

/-- R178: no handle names the drive and no request of it is queued. -/
def Work.driveIdle (w : Work) (d : DriveId) : Bool :=
  w.handlesOn d (fun _ => true) == [] && w.entriesOf d (fun _ _ => true) == []

/-! ### The items -/

/-- R176, R177: the current value of an item by its number and qualifier, if there is such an item. -/
def itemValue (cfg : Cfg) (w : Work) (item q : Nat) : Option Nat :=
  match item with
  | 1 => (lineIdOf q).map fun l => flagCode (w.line l).enabled
  | 2 => (lineIdOf q).map fun l => formatCode (w.line l).format
  | 3 => (lineIdOf q).map fun l => generatorCode (w.line l).generator
  | 4 => (lineIdOf q).map fun l => dropMask (w.line l).drops
  | 5 => (lineIdOf q).map fun l => (w.line l).answerWindow
  | 6 => (generatorOf q).map fun g => match g with | .p => cfg.rateP / 100 | .q => cfg.rateQ / 100
  | 7 => if q = 0 then some cfg.pollPause else none
  | 8 => (driveOf q).map fun d => flagCode (w.drive d).enabled
  | 9 => if q = 0 then some cfg.stepRate else none
  | 10 => if q = 0 then some cfg.headUnload else none
  | 11 => if q = 0 then some cfg.retryLimit else none
  | 12 => if q = 0 then some (flagCode cfg.writeVerify) else none
  | 13 => (deskNamed (q / 16) (q % 16)).map fun k => clsCode (cfg.cls k)
  | 14 => if q = 0 then some cfg.missThreshold else none
  | _ => none

/-- R176, 11.3: whether a value is one of an item's values. A drop set whose high byte is not 0 is none, the model's choice
(log 57). -/
def itemValueOk (item v : Nat) : Bool :=
  match item with
  | 1 | 8 | 12 => v ≤ 1
  | 2 => v ≤ 2
  | 3 => v ≤ 1
  | 4 => 1 ≤ v && v ≤ 255
  | 5 => 20 ≤ v && v ≤ 200
  | 6 => v == 12 || v == 24 || v == 48 || v == 96 || v == 192
  | 7 => v ≤ 500
  | 9 => v == 3 || v == 6 || v == 10 || v == 15
  | 10 => 2 ≤ v && v ≤ 60
  | 11 => 1 ≤ v && v ≤ 8
  | 13 => v ≤ 3
  | 14 => 2 ≤ v && v ≤ 8
  | _ => false

/-- R81: the desks whose class is SUPERVISOR. -/
def supervisors (cfg : Cfg) : List DeskNo := allDesks.filter fun k => cfg.cls k == .supervisor

/-- R178, R81: whether the part can take a change of an item. -/
def itemFree (cfg : Cfg) (w : Work) (item q v : Nat) : Bool :=
  match item with
  | 2 | 3 | 4 | 5 => (lineIdOf q).all fun l => !(w.line l).enabled
  | 6 => (generatorOf q).all fun g => allLines.all fun l => !((w.line l).enabled && (w.line l).generator == g)
  | 8 => v == 1 || (driveOf q).all w.driveIdle
  | 13 => (deskNamed (q / 16) (q % 16)).all fun k => !(supervisors cfg == [k] && v != clsCode .supervisor)
  | _ => true

/-- R178: the changes of the items that the part as a whole holds. -/
def changeCfg (cfg : Cfg) (item q v : Nat) : Cfg :=
  match item with
  | 6 => if q = 0 then { cfg with rateP := v * 100 } else { cfg with rateQ := v * 100 }
  | 7 => { cfg with pollPause := v }
  | 9 => { cfg with stepRate := v }
  | 10 => { cfg with headUnload := v }
  | 11 => { cfg with retryLimit := v }
  | 12 => { cfg with writeVerify := v == 1 }
  | 13 => match deskNamed (q / 16) (q % 16), clsOf v with
    | some k, some c => { cfg with classes := cfg.classes.set k c }
    | _, _ => cfg
  | 14 => { cfg with missThreshold := v }
  | _ => cfg

/-- R178: the stored fields of a line changed. -/
def Line.change (x : Line) (item v : Nat) : Line :=
  match item with
  | 2 => { x with format := (formatOf v).getD x.format }
  | 3 => { x with generator := (generatorOf v).getD x.generator }
  | 4 => { x with drops := dropsOf v }
  | 5 => { x with answerWindow := v }
  | _ => x

/-- R178: the changes of the items of one line or one drive, with their effects. -/
def Work.change (w : Work) (item q v : Nat) : Work :=
  match item with
  | 1 => match lineIdOf q with
    | some l => if v = 1 then w.enableLine l else w.disableLine l
    | none => w
  | 2 | 3 | 4 | 5 => match lineIdOf q with
    | some l => w.updLine l (·.change item v)
    | none => w
  | 8 => match driveOf q with
    | some d => if v = 1 then w.enableDrive d else w.disableDrive d
    | none => w
  | _ => w

/-- R177: SET. -/
def Work.setItem (cfg : Cfg) (w : Work) (env : Envelope) (item q v : Nat) : Cfg × Work :=
  match itemValue cfg w item q, itemValueOk item v with
  | some old, true =>
    if v = old then (cfg, w.replyOk env .set (.setting item old))
    else if itemFree cfg w item q v then
      (changeCfg cfg item q v, (w.change item q v).replyOk env .set (.setting item old))
    else (cfg, w.refuse env .set .inUse)
  | _, _ => (cfg, w.refuse env .set .badRequest)

/-- R177: QUERY. -/
def Work.query (cfg : Cfg) (w : Work) (env : Envelope) (item q : Nat) : Work :=
  match itemValue cfg w item q with
  | some v => w.replyOk env .query (.setting item v)
  | none => w.refuse env .query .badRequest

/-! ### STATUS and LINE_STATUS -/

/-- R179: what STATUS reports. -/
def Work.statusOf (cfg : Cfg) (w : Work) (d : DriveId) : StatusReport :=
  let dr := w.drive d
  { vol := dr.vol,
    label := dr.media.map fun m => (m.label.name, m.label.serial, m.label.sides),
    counts := dr.media.map Media.counts,
    slotsUsed := dr.media.map Media.slotsUsed,
    checkOuts := w.checkOuts d,
    badListFull := dr.media.any (·.badListFull),
    mech := dr.mech, clock := cfg.clock, cause := w.lastRestart }

/-- R179: STATUS. -/
def Work.status (cfg : Cfg) (w : Work) (env : Envelope) (drive : Nat) : Work :=
  match driveOf drive with
  | some d =>
    if (w.drive d).enabled then w.replyOk env .status (.status (w.statusOf cfg d)) else w.refuse env .status .noDrive
  | none => w.refuse env .status .badRequest

/-- R163: the rate of a generator. -/
def rateOf (cfg : Cfg) : Generator → Nat
  | .p => cfg.rateP
  | .q => cfg.rateQ

/-- Whether a frame is a notice. -/
def TxFrame.isNotice (f : TxFrame) : Bool :=
  match f.content with
  | .notice _ _ => true
  | .reply _ => false

/-- R175: what LINE_STATUS reports. -/
def Work.lineReport (cfg : Cfg) (w : Work) (l : LineId) : LineReport :=
  let x := w.line l
  { enabled := x.enabled, format := x.format, generator := x.generator, baud := rateOf cfg x.generator,
    judgement := x.judgement, frames := x.tx.length, notices := x.tx.countP TxFrame.isNotice,
    side := if x.format = .f9M then
        .multidrop x.poll.cycle (x.drops.map fun n =>
          (n, (w.desk (deskOf l n)).presence, (w.desk (deskOf l n)).missCount))
      else .pointToPoint x.deskReady (w.desk (deskOf l 1)).presence,
    counts := x.counts }

/-- R175: LINE_STATUS; the counts reported are cleared. -/
def Work.lineStatus (cfg : Cfg) (w : Work) (env : Envelope) (line : Nat) : Work :=
  match lineIdOf line with
  | some l =>
    (w.updLine l fun x => { x with counts := Counts.zero }).replyOk env .lineStatus (.lineStatus (w.lineReport cfg l))
  | none => w.refuse env .lineStatus .badRequest

/-! ### RESTART -/

/-- R180 step 2: no catalogue or label write is transferring. -/
def Work.writesDone (w : Work) : Bool :=
  allDrives.all fun d => (w.drive d).queued.all fun op =>
    !(op.transferring && (op.kind == .catalogueWrite || op.kind == .labelWrite))

/-- R140, R158, R180 step 3: a drive cleared: UNLOADED with its head position, or NOT_READY as it was. -/
def Drive.cleared (dr : Drive) : Drive :=
  { dr.stopped (if dr.mech = .notReady then .notReady else .unloaded) with
    head := if dr.mech = .faulted then none else dr.head,
    indexWatch := if dr.mech = .notReady then none else some Config.indexWatchMs,
    recalSteps := 0, ops := [], appendWait := [], attempt := Attempt.none, lastLane := .ordinary, pointer := 31,
    vol := .absent, media := none, mount := none }

/-- R180 step 3, R107, R119: a desk record cleared, with the notice of step 6 for a PRESENT desk. -/
def Desk.cleared (k : Desk) : Desk :=
  { k with outstanding := none, noticesDropped := false,
           notices := if k.presence = .present then [.restarted] else [] }

/-- R180 steps 3 and 6. -/
def Work.cleared (w : Work) : Work :=
  { w with
    restarting := false, lastRestart := .restart,
    desks := Vector.ofFn fun k => (w.desk k).cleared,
    lines := Vector.ofFn fun l => { w.line l with dropLastAdmitted := 8 },
    handles := Vector.replicate 48 none, retired := Vector.replicate 16 none, queue := Vector.replicate 24 none,
    drives := Vector.ofFn fun d => (w.drive d).cleared,
    buffers := Vector.replicate 6 Buffer.powerOn, lru := [0, 1, 2, 3, 4, 5], waitList := [], poolDue := false,
    owner := none }

/-- R180 step 4: each enabled drive whose taken level is high starts its mount. -/
def Work.remountAll (w : Work) : Work :=
  w.each allDrives fun d w => if (w.drive d).enabled && (w.drive d).takenLevel then w.startMount d else w

/-- R180 steps 3 to 6. -/
def clearAll (cfg : Cfg) (w : Work) : Cfg × Work :=
  let done := changeEditions cfg (fun _ => true) w.cleared
  (done.1, done.2.remountAll)

/-- R180: RESTART is replied and the part enters RESTARTING. -/
def Work.restart (w : Work) (env : Envelope) : Work := { w.replyOk env .restart .none with restarting := true }

end Sys2Proof.Machine
end

