-- ==== Sys2Proof/Machine/Intake.lean ====
section
/-! DEFINITION. Request Intake: the steps that take a frame (R106, R107), and the commands of a desk, each of them a frame
handed to Intake (log 3). -/

namespace Sys2Proof.Machine

open Sys2Proof

/-! ### Taking a frame -/

/-- R80, R106 step 2: the kind of a request. -/
def kindOf : Request → Option ReqKind
  | .list _ _ _ => some .list
  | .openRead _ _ => some .openStory
  | .openEdit _ _ => some .openStory
  | .create _ _ _ => some .create
  | .read _ _ _ => some .read
  | .write _ _ _ => some .write
  | .file _ => some .file
  | .discard _ => some .discard
  | .close _ => some .close
  | .kill _ _ => some .kill
  | .breakCheckOut _ _ => some .breakIt
  | .status _ => some .status
  | .cancel => some .cancel
  | .format _ _ _ _ => some .format
  | .remount _ => some .remount
  | .set _ _ _ => some .set
  | .setClass _ _ _ => some .set
  | .setLineEnable _ _ => some .set
  | .setDriveEnable _ _ => some .set
  | .query _ _ => some .query
  | .ruleRead _ => some .rule
  | .ruleWrite _ _ => some .rule
  | .editionRead _ => some .edition
  | .editionWrite _ _ => some .edition
  | .clock _ => some .clock
  | .lineStatus _ => some .lineStatus
  | .restart => some .restart
  | .malformed k => some k
  | .unknown _ => none

/-- R19: FORMAT at intake. -/
def Work.format (w : Work) (env : Envelope) (drive : Nat) (name : Chars) (serial sides : Nat) : Work :=
  match nameOk name && (1 ≤ serial && serial ≤ 999999) && (sides == 1 || sides == 2), driveOf drive with
  | true, some d => w.queueUp env (.format name serial sides) d
  | _, _ => w.refuse env .format .badRequest

/-- R23, R109: REMOUNT at intake. -/
def Work.remount (w : Work) (env : Envelope) (drive : Nat) : Work :=
  match driveOf drive with
  | some d => w.queueUp env .remount d
  | none => w.refuse env .remount .badRequest

/-- R81, 11.3: the qualifier of a desk; a drop past 15 has no desk byte and names no desk. -/
def deskQualifier (line drop : Nat) : Nat := if drop < 16 then line * 16 + drop else 0

/-- R177, R178: SET; the channel that a disabled drive gives up is granted at once (R150). -/
def serveSet (cfg : Cfg) (w : Work) (env : Envelope) (item q v : Nat) : Cfg × Work :=
  let done := w.setItem cfg env item q v
  if item = 8 then (done.1, settle cfg done.2) else done

/-- R106 step 4: the request's own checks and its outcome. -/
def serve (cfg : Cfg) (w : Work) (env : Envelope) (req : Request) : Cfg × Work :=
  match req with
  | .list drive f start => (cfg, w.list cfg env drive f start)
  | .openRead drive slug => (cfg, w.openRead cfg env drive slug)
  | .openEdit drive slug => (cfg, w.openEdit cfg env drive slug)
  | .create drive slug basket => (cfg, w.create cfg env drive slug basket)
  | .read h count offset => (cfg, w.read env h count offset)
  | .write h offset data => (cfg, w.write env h offset data)
  | .file h => (cfg, w.file env h)
  | .discard h => (cfg, settle cfg (w.discard env h))
  | .close h => (cfg, w.close env h)
  | .kill drive slug => (cfg, w.kill cfg env drive slug)
  | .breakCheckOut drive slug => (cfg, settle cfg (w.breakCheckOut env drive slug))
  | .status drive => (cfg, w.status cfg env drive)
  | .cancel => (cfg, w)
  | .format drive name serial sides => (cfg, w.format env drive name serial sides)
  | .remount drive => (cfg, w.remount env drive)
  | .set item q v => serveSet cfg w env item q v
  | .setClass line drop cls => w.setItem cfg env 13 (deskQualifier line drop) cls
  | .setLineEnable line v => w.setItem cfg env 1 line v
  | .setDriveEnable drive v => serveSet cfg w env 8 drive v
  | .query item q => (cfg, w.query cfg env item q)
  | .ruleRead i => (cfg, w.ruleRead cfg env i)
  | .ruleWrite i f => w.ruleWrite cfg env i f
  | .editionRead i => (cfg, w.editionRead cfg env i)
  | .editionWrite i f => w.editionWrite cfg env i f
  | .clock m => w.setClock cfg env m
  | .lineStatus l => (cfg, w.lineStatus cfg env l)
  | .restart => (cfg, w.restart env)
  | .malformed k => (cfg, w.refuse env k .badRequest)
  | .unknown _ => (cfg, w)

/-- R107: a frame from a desk whose request is outstanding is answered BUSY, with the frame's own tag. -/
def Work.busy (w : Work) (f : Frame) : Work :=
  w.sendReply f.env.desk ⟨kindOf f.req, f.env.tag, .busy, refusalBody (kindOf f.req)⟩

/-- R107: a request becomes the desk's outstanding request. -/
def Work.setOutstanding (w : Work) (f : Frame) : Work :=
  w.updDesk f.env.desk fun k => { k with outstanding := some ⟨f.env.tag, kindOf f.req, none⟩ }

/-- R106 steps 2 to 5, for a frame whose desk has nothing outstanding. -/
def Work.accept (cfg : Cfg) (w : Work) (f : Frame) : Cfg × Work :=
  match kindOf f.req with
  | none => (cfg, w.produceReply f.env.desk ⟨none, f.env.tag, .badRequest, .none⟩)
  | some k => if classMay (cfg.cls f.env.desk) k then serve cfg w f.env f.req else (cfg, w.refuse f.env k .notPermitted)

/-- R106, R121: Intake takes a frame. -/
def intake (cfg : Cfg) (w : Work) (f : Frame) : Cfg × Work :=
  if f.req = .cancel then (cfg, settle cfg (w.cancel f.env.desk))
  else if (w.desk f.env.desk).outstanding.isSome then (cfg, w.busy f)
  else (w.setOutstanding f).accept cfg f

/-- R106, R180: a frame handed to Intake; while RESTARTING it is discarded. -/
def handOver (cfg : Cfg) (w : Work) (f : Frame) : Cfg × Work := if w.restarting then (cfg, w) else intake cfg w f

/-- R106, R167: a line has completed a valid frame: Intake takes it, or the line holds it. -/
def complete (cfg : Cfg) (w : Work) (f : Frame) : Cfg × Work :=
  if w.restarting then (cfg, w)
  else if (w.line (lineOf f.env.desk)).tx.length ≤ Config.intakeRoom then intake cfg w f
  else if (w.line (lineOf f.env.desk)).rx = .hunting then
    (cfg, w.updLine (lineOf f.env.desk) fun x => { x with rx := .held, rxFrame := some f, rxDropped := false })
  else (cfg, w)

/-- The block's next state from a configuration and a work. -/
def State.with (s : State) (p : Cfg × Work) : Host.Outcome State Fault Refusal := .next { s with cfg := p.1, work := p.2 }

/-- Log 3: a desk's request: its frame reaches Intake if its line is enabled. -/
def handFrame (f : Frame) (s : State) : Host.Outcome State Fault Refusal :=
  if (s.work.line (lineOf f.env.desk)).enabled then s.with (complete s.cfg s.work f) else .next s

/-! ### The commands of a desk -/

/-- R42 to R45: LIST. -/
def execList (env : Envelope) (drive : Nat) (filter : BasketFilter) (start : Nat) (s : State) :
    Host.Outcome State Fault Refusal := handFrame ⟨env, .list drive filter start⟩ s

/-- R44: LIST_NEXT_FRAME. -/
def execListNextFrame (desk : DeskNo) (s : State) : Host.Outcome State Fault Refusal := s.goOn (s.work.listNext s.cfg desk)

/-- R50, R51: OPEN_READ. -/
def execOpenRead (env : Envelope) (drive : Nat) (slug : Chars) (s : State) : Host.Outcome State Fault Refusal :=
  handFrame ⟨env, .openRead drive slug⟩ s

/-- R50, R52: OPEN_EDIT. -/
def execOpenEdit (env : Envelope) (drive : Nat) (slug : Chars) (s : State) : Host.Outcome State Fault Refusal :=
  handFrame ⟨env, .openEdit drive slug⟩ s

/-- R32, R53: CREATE. -/
def execCreate (env : Envelope) (drive : Nat) (slug : Chars) (basket : Nat) (s : State) :
    Host.Outcome State Fault Refusal := handFrame ⟨env, .create drive slug basket⟩ s

/-- R54, R55, R130: READ. -/
def execRead (env : Envelope) (handle count : Nat) (offset : Option Nat) (s : State) :
    Host.Outcome State Fault Refusal := handFrame ⟨env, .read handle count offset⟩ s

/-- R57: WRITE. -/
def execWrite (env : Envelope) (handle offset : Nat) (data : Chars) (s : State) : Host.Outcome State Fault Refusal :=
  handFrame ⟨env, .write handle offset data⟩ s

/-- R61: FILE. -/
def execFile (env : Envelope) (handle : Nat) (s : State) : Host.Outcome State Fault Refusal :=
  handFrame ⟨env, .file handle⟩ s

/-- R69: DISCARD. -/
def execDiscard (env : Envelope) (handle : Nat) (s : State) : Host.Outcome State Fault Refusal :=
  handFrame ⟨env, .discard handle⟩ s

/-- R70: CLOSE. -/
def execClose (env : Envelope) (handle : Nat) (s : State) : Host.Outcome State Fault Refusal :=
  handFrame ⟨env, .close handle⟩ s

/-- R39: KILL. -/
def execKill (env : Envelope) (drive : Nat) (slug : Chars) (s : State) : Host.Outcome State Fault Refusal :=
  handFrame ⟨env, .kill drive slug⟩ s

/-- R71, R72: BREAK. -/
def execBreak (env : Envelope) (drive : Nat) (slug : Chars) (s : State) : Host.Outcome State Fault Refusal :=
  handFrame ⟨env, .breakCheckOut drive slug⟩ s

/-- R179: STATUS. -/
def execStatus (env : Envelope) (drive : Nat) (s : State) : Host.Outcome State Fault Refusal :=
  handFrame ⟨env, .status drive⟩ s

/-- R121 to R123: CANCEL. -/
def execCancel (env : Envelope) (s : State) : Host.Outcome State Fault Refusal := handFrame ⟨env, .cancel⟩ s

/-- R19, R109: FORMAT. -/
def execFormat (env : Envelope) (drive : Nat) (name : Chars) (serial sides : Nat) (s : State) :
    Host.Outcome State Fault Refusal := handFrame ⟨env, .format drive name serial sides⟩ s

/-- R23, R109: REMOUNT. -/
def execRemount (env : Envelope) (drive : Nat) (s : State) : Host.Outcome State Fault Refusal :=
  handFrame ⟨env, .remount drive⟩ s

/-- R177, R178: SET. -/
def execSet (env : Envelope) (item qualifier value : Nat) (s : State) : Host.Outcome State Fault Refusal :=
  handFrame ⟨env, .set item qualifier value⟩ s

/-- R81: SET_CLASS. -/
def execSetClass (env : Envelope) (line drop cls : Nat) (s : State) : Host.Outcome State Fault Refusal :=
  handFrame ⟨env, .setClass line drop cls⟩ s

/-- R173, R174, R178: SET_LINE_ENABLE. -/
def execSetLineEnable (env : Envelope) (line value : Nat) (s : State) : Host.Outcome State Fault Refusal :=
  handFrame ⟨env, .setLineEnable line value⟩ s

/-- R178: SET_DRIVE_ENABLE. -/
def execSetDriveEnable (env : Envelope) (drive value : Nat) (s : State) : Host.Outcome State Fault Refusal :=
  handFrame ⟨env, .setDriveEnable drive value⟩ s

/-- R177: QUERY. -/
def execQuery (env : Envelope) (item qualifier : Nat) (s : State) : Host.Outcome State Fault Refusal :=
  handFrame ⟨env, .query item qualifier⟩ s

/-- R83: RULE_READ. -/
def execRuleRead (env : Envelope) (index : Nat) (s : State) : Host.Outcome State Fault Refusal :=
  handFrame ⟨env, .ruleRead index⟩ s

/-- R83: RULE_WRITE. -/
def execRuleWrite (env : Envelope) (index : Nat) (fields : RuleFields) (s : State) : Host.Outcome State Fault Refusal :=
  handFrame ⟨env, .ruleWrite index fields⟩ s

/-- R91: EDITION_READ. -/
def execEditionRead (env : Envelope) (index : Nat) (s : State) : Host.Outcome State Fault Refusal :=
  handFrame ⟨env, .editionRead index⟩ s

/-- R91, R96: EDITION_WRITE. -/
def execEditionWrite (env : Envelope) (index : Nat) (fields : EditionFields) (s : State) :
    Host.Outcome State Fault Refusal := handFrame ⟨env, .editionWrite index fields⟩ s

/-- R95: CLOCK. -/
def execClock (env : Envelope) (minute : Nat) (s : State) : Host.Outcome State Fault Refusal :=
  handFrame ⟨env, .clock minute⟩ s

/-- R175: LINE_STATUS. -/
def execLineStatus (env : Envelope) (line : Nat) (s : State) : Host.Outcome State Fault Refusal :=
  handFrame ⟨env, .lineStatus line⟩ s

/-- R180: RESTART. -/
def execRestart (env : Envelope) (s : State) : Host.Outcome State Fault Refusal := handFrame ⟨env, .restart⟩ s

/-- R106 step 2: UNKNOWN_KIND_FRAME. -/
def execUnknownKindFrame (env : Envelope) (code : Nat) (s : State) : Host.Outcome State Fault Refusal :=
  handFrame ⟨env, .unknown code⟩ s

/-- R120: NOTICE_ADMISSION. -/
def execNoticeAdmission (line : LineId) (s : State) : Host.Outcome State Fault Refusal :=
  s.goOn (if (s.work.line line).enabled then s.work.admitAll line else s.work)

/-! ### The clock, restart and power-on -/

/-- R94: MINUTE_EXPIRY. -/
def execMinuteExpiry (s : State) : Host.Outcome State Fault Refusal := s.with (minuteStep s.cfg s.work)

/-- R180: RESTART_CLEARING. -/
def execRestartClearing (s : State) : Host.Outcome State Fault Refusal :=
  if s.work.restarting && s.work.writesDone then
    let done := clearAll s.cfg s.work
    s.with (done.1, settle done.1 done.2)
  else .next s

/-- R181: POWER_ON. -/
def execPowerOn (pins : Pins) (s : State) : Host.Outcome State Fault Refusal :=
  s.with (Cfg.powerOn, Work.powerOn pins)

end Sys2Proof.Machine
end

