-- ==== Sys2Proof/Machine/Lines.lean ====
section
/-! DEFINITION. Desk lines: receiving (R163 to R167), judgement (R164), sending (R168), polling (R169 to R171) and
presence on a point-to-point line (R172). -/

namespace Sys2Proof.Machine

open Sys2Proof

/-! ### Counts and discards -/

/-- R166: the causes that are counted. -/
inductive LineError where
  | parity | framing | gap | check | length | stray | wrongForm
  deriving DecidableEq, Repr

/-- R166: a count rises by one, up to 65,535. -/
def bump (n : Nat) : Nat := min Config.countLimit (n + 1)

/-- R162, R166: one count raised. -/
def Counts.add (c : Counts) : LineError → Counts
  | .parity => { c with parity := bump c.parity }
  | .framing => { c with framing := bump c.framing }
  | .gap => { c with gap := bump c.gap }
  | .check => { c with check := bump c.check }
  | .length => { c with length := bump c.length }
  | .stray => { c with stray := bump c.stray }
  | .wrongForm => { c with wrongForm := bump c.wrongForm }

/-- R166: an error counted. -/
def Line.count (x : Line) (e : LineError) : Line := { x with counts := x.counts.add e }

/-- R166: the receive frame buffer emptied, in a condition. -/
def Line.clearRx (x : Line) (rx : Rx) : Line := { x with rx, rxChars := [] }

/-- R166: a frame is discarded; after a GAP the buffer is HUNTING, and QUIET after any other discard. -/
def Line.drop (x : Line) (e : LineError) : Line :=
  (x.count e).clearRx (match e with
    | .gap => .hunting
    | .parity | .framing | .check | .length | .stray | .wrongForm => .quiet)

/-! ### Assembling -/

/-- R182: the printable characters. -/
def printable (b : Byte) : Bool := 0x20 ≤ b.toNat && b.toNat ≤ 0x7E

/-- R165: the form of the frame that a character starts. -/
def startsFrame (format : LineFormat) (b : Byte) : Option Form :=
  if b = 0x02 ∧ format ≠ .f7E then some .packed
  else if printable b = true ∧ b ≠ 0x20 then some .text
  else none

/-- R165: a frame is started. -/
def Line.startFrame (x : Line) (f : Form) (b : Byte) : Line :=
  { x with rx := .assembling, rxChars := [b], rxPacked := f == .packed }

/-- What a character does to the frame being assembled: it goes on, it is complete, or it is discarded. -/
inductive Assembled where
  | more
  | whole (form : Form)
  | bad (e : LineError)
  deriving DecidableEq, Repr

/-- R165, R166: a packed frame with its newest character: the length byte is judged as it comes, and the check when the
last byte has come. -/
def judgePacked (cs : Chars) : Assembled :=
  if cs.length = 2 then (if 3 ≤ byteAt cs 1 ∧ byteAt cs 1 ≤ 200 then .more else .bad .length)
  else if cs.length = byteAt cs 1 + 2 then (if packedCheck cs then .whole .packed else .bad .check)
  else .more

/-- R165, R166: a text frame and its newest character. A 121st character counts LENGTH, printable or not, the model's choice
(log 53). -/
def judgeText (before : Chars) (b : Byte) : Assembled :=
  if b = 0x0D then .whole .text
  else if before.length = 120 then .bad .length
  else if printable b then .more
  else .bad .check

/-- R165, R166: a character received while a frame is assembled. One with a parity and a framing error counts PARITY alone
(log 42), and one with either counts it whatever its value or place in the frame (log 53): the model's choices. -/
def Line.assemble (x : Line) (c : LineChar) : Assembled :=
  if c.parityError then .bad .parity
  else if c.framingError then .bad .framing
  else if x.rxPacked then judgePacked (x.rxChars ++ [c.value])
  else judgeText x.rxChars c.value

/-- The frame of a complete run of characters (R182, R183). -/
def Line.frameOf (x : Line) (desk : DeskNo) (form : Form) (b : Byte) : Frame :=
  match form with
  | .packed => readPacked desk (x.rxChars ++ [b])
  | .text => readText desk x.rxChars

/-- R164: the judgement that a valid frame makes of an UNJUDGED line. -/
def Judgement.after (j : Judgement) (f : Form) : Judgement :=
  match j, f with
  | .unjudged, .text => .text
  | .unjudged, .packed => .packed
  | .disabled, _ | .text, _ | .packed, _ => j

/-- R164: whether a valid frame is of the line's form. -/
def Judgement.suits (j : Judgement) (f : Form) : Bool :=
  match j, f with
  | .text, .packed => false
  | .packed, .text => false
  | .text, .text | .packed, .packed | .unjudged, _ | .disabled, _ => true

/-- R164, R165: a valid frame of the other form leaves the buffer HUNTING and is counted WRONG_FORM; one completed while the
part is RESTARTING is counted under no error (R162, R180). -/
def Line.otherForm (restarting : Bool) (x : Line) : Line :=
  (if restarting then x else x.count .wrongForm).clearRx .hunting

/-- R164, R165, R167: a frame completed on a line is handed over, or counted WRONG_FORM. -/
def frameDone (cfg : Cfg) (w : Work) (l : LineId) (desk : DeskNo) (form : Form) (b : Byte) : Cfg × Work :=
  let x := w.line l
  if x.judgement.suits form then
    complete cfg (w.updLine l fun y => { y.clearRx .hunting with judgement := y.judgement.after form }) (x.frameOf desk form b)
  else (cfg, w.updLine l (Line.otherForm w.restarting))

/-- R167: a character received while a frame is held. -/
def Line.overrun (x : Line) : Line := { x.count .stray with rxDropped := true }

/-- R167, R170: an upstream character of a 9M line that is dropped; STRAY rises, by one, also where the buffer is QUIET (log
43), and a held frame is marked as having lost characters. -/
def Line.stray (x : Line) : Line := if x.rx = .held then x.overrun else x.count .stray

/-- R165: a character with an error that finds no frame being assembled; PARITY comes before FRAMING (log 42). -/
def Line.countBad (x : Line) (c : LineChar) : Line :=
  if c.parityError then x.count .parity else if c.framingError then x.count .framing else x

/-- R165: a character received on a point-to-point line. -/
def receive (cfg : Cfg) (w : Work) (l : LineId) (c : LineChar) : Cfg × Work :=
  let x := w.line l
  match x.rx with
  | .hunting =>
    if c.parityError || c.framingError then (cfg, w.updLine l (·.countBad c))
    else match startsFrame x.format c.value with
      | some f => (cfg, w.updLine l (·.startFrame f c.value))
      | none => (cfg, w)
  | .assembling =>
    match x.assemble c with
    | .more => (cfg, w.updLine l fun y => { y with rxChars := y.rxChars ++ [c.value] })
    | .whole form => frameDone cfg w l (deskOf l 1) form c.value
    | .bad e => (cfg, w.updLine l (·.drop e))
  | .held => (cfg, w.updLine l Line.overrun)
  | .quiet => (cfg, w)

/-! ### Polling -/

/-- R182: the poll character. -/
def pollCharacter : Byte := 0x05
/-- R182: the nil character. -/
def nilCharacter : Byte := 0x15

/-- R169, R182: what is sent while the sequencer is POLLING: the drop's address character and the poll character. -/
def Line.pollChars (x : Line) : List OutChar := [⟨byte x.poll.position, true⟩, ⟨pollCharacter, false⟩]

/-- R169: the next drop of the list, or the end of the cycle and its pause; in PAUSE the position stays at the last drop, the
model's choice (log 61). -/
def Line.moveOn (cfg : Cfg) (x : Line) : Line :=
  match x.drops.find? (x.poll.position < ·) with
  | some n => { x with poll := { x.poll with state := .ready, position := n, timer := none } }
  | none => { x with poll := { x.poll with state := .pause, timer := some cfg.pollPause } }

/-- The desk of the drop at the sequencer's position. -/
def Work.polled (w : Work) (l : LineId) : DeskNo := deskOf l (w.line l).poll.position

/-- R171: a valid answer. -/
def Desk.answered (k : Desk) : Desk := { k with presence := .present, missCount := 0 }

/-- R171: a miss. -/
def Desk.missed (threshold : Nat) (k : Desk) : Desk :=
  { k with missCount := min threshold (k.missCount + 1),
           presence := if threshold ≤ k.missCount + 1 then .absent else k.presence }

/-- R170, R171: the visit ends with a valid answer. -/
def visitAnswered (cfg : Cfg) (w : Work) (l : LineId) : Work :=
  (w.updDesk (w.polled l) Desk.answered).updLine l (Line.moveOn cfg)

/-- R170, R171: the visit ends as a miss. -/
def visitMissed (cfg : Cfg) (w : Work) (l : LineId) : Work :=
  (w.updDesk (w.polled l) (Desk.missed cfg.missThreshold)).updLine l (Line.moveOn cfg)

/-- R170: the polled drop begins its answer; a QUIET buffer hunts again (log 17). -/
def Line.openAnswer (x : Line) : Line :=
  { x with poll := { x.poll with state := .answer, timer := none }, rx := if x.rx = .quiet then .hunting else x.rx }

/-- R170: a character in ANSWER that is not an address character. A buffer that is QUIET, since its held frame has been taken
in the answer, takes the character as the first after the address (log 54). A frame that ends the answer is taken in the same
step, before any notice of the drop is admitted (log 55). Both are the model's choices. -/
def answerCharacter (cfg : Cfg) (w : Work) (l : LineId) (c : LineChar) : Cfg × Work :=
  let x := w.line l
  match x.rx with
  | .assembling =>
    match x.assemble c with
    | .more => (cfg, w.updLine l fun y => { y with rxChars := y.rxChars ++ [c.value] })
    | .whole form => frameDone cfg (visitAnswered cfg w l) l (w.polled l) form c.value
    | .bad e => (cfg, visitMissed cfg (w.updLine l (·.drop e)) l)
  | .held =>
    if c.value = nilCharacter ∧ c.framingError = false then (cfg, visitAnswered cfg w l)
    else (cfg, w.updLine l Line.overrun)
  | .hunting | .quiet =>
    if c.parityError || c.framingError then (cfg, visitMissed cfg (w.updLine l (·.countBad c)) l)
    else if c.value = nilCharacter then (cfg, visitAnswered cfg w l)
    else match startsFrame x.format c.value with
      | some f => (cfg, w.updLine l (·.startFrame f c.value))
      | none => (cfg, visitMissed cfg w l)

/-- R170: an address character in ANSWER: the answer fails, and a frame being assembled is given up, with the buffer QUIET as
after a discard: the model's choice (log 44). -/
def answerAddress (cfg : Cfg) (w : Work) (l : LineId) : Work :=
  visitMissed cfg (w.updLine l fun x =>
    if x.rx = .assembling then x.stray.clearRx .quiet else x.stray) l

/-- R170: whether a character is the polled drop's address character. -/
def Line.addressed (x : Line) (c : LineChar) : Bool :=
  c.mark && !c.framingError && c.value == byte x.poll.position

/-- R170: a character received on a multidrop line. -/
def receiveUpstream (cfg : Cfg) (w : Work) (l : LineId) (c : LineChar) : Cfg × Work :=
  match (w.line l).poll.state with
  | .window =>
    if (w.line l).addressed c then (cfg, w.updLine l Line.openAnswer) else (cfg, w.updLine l Line.stray)
  | .answer => if c.mark then (cfg, answerAddress cfg w l) else answerCharacter cfg w l c
  | .ready | .polling | .pause => (cfg, w.updLine l Line.stray)

/-- R169, R182: the poll of the drop at the position begins: its two characters are sent downstream. -/
def Line.beginPoll (x : Line) : Line := { x with poll := { x.poll with state := .polling }, pollOut := x.pollChars }

/-- R169: the sequencer looks at the drop at its position: it passes it over, or begins its poll when the transmit queue
is empty. -/
def Work.pollBegin (cfg : Cfg) (w : Work) (l : LineId) : Work :=
  let x := w.line l
  if x.poll.state = .ready then
    if (w.desk (w.polled l)).presence = .absent ∧ x.poll.cycle ≠ 0 then w.updLine l (Line.moveOn cfg)
    else if x.tx = [] then w.updLine l Line.beginPoll
    else w
  else w

/-- R169: the poll has been sent, and the window opens, also where a frame has entered the transmit queue meanwhile: the
model's choice beside R167 (log 51). -/
def Line.openWindow (x : Line) : Line :=
  if x.poll.state = .polling then
    { x with poll := { x.poll with state := .window, timer := some x.answerWindow }, pollOut := [] }
  else x

/-- R169: the pause has ended. -/
def Line.nextCycle (x : Line) : Line :=
  if x.poll.state = .pause then
    { x with poll := ⟨.ready, x.drops.headD 1, (x.poll.cycle + 1) % 8, none⟩ }
  else x

/-! ### Gaps, sending and presence -/

/-- R166, R170: more than four character times without a character. -/
def gapStep (cfg : Cfg) (w : Work) (l : LineId) : Work :=
  let x := w.line l
  let dropped := if x.rx = .assembling then w.updLine l (·.drop .gap) else w
  if x.format = .f9M then (if x.poll.state = .answer then visitMissed cfg dropped l else w) else dropped

/-- R168: a frame has been sent: it leaves the queue, the next one begins, and admission is tried. -/
def Work.sent (w : Work) (l : LineId) : Work :=
  match (w.line l).tx with
  | [] => w
  | _ :: _ =>
    (w.updLine l Line.pop).admitAll l

/-- R172: the desk-ready input changes on a point-to-point line. -/
def Work.deskReady (w : Work) (l : LineId) (level : Bool) : Work :=
  let x := w.line l
  let changed := w.updLine l fun y => { y with deskReady := level }
  if x.deskReady = level ∨ x.enabled = false ∨ x.format = .f9M then changed
  else if level then
    (changed.updLine l fun y => { y with negation := none }).updDesk (deskOf l 1) fun k => { k with presence := .present }
  else changed.updLine l fun y => { y with negation := some Config.negationMs }

/-- R172: the negation timer expires with the input still negated. -/
def Work.negationEnd (w : Work) (l : LineId) : Work :=
  if (w.line l).negation.isSome && !(w.line l).deskReady then
    (w.updLine l fun y => { y with negation := none }).updDesk (deskOf l 1) fun k => { k with presence := .absent }
  else w

/-- R167: a held frame is taken by Intake. -/
def takeHeld (cfg : Cfg) (w : Work) (l : LineId) : Cfg × Work :=
  match (w.line l).rx, (w.line l).rxFrame with
  | .held, some f =>
    if (w.line l).tx.length ≤ Config.intakeRoom then
      handOver cfg (w.updLine l fun x =>
        { x.clearRx (if x.rxDropped then .quiet else .hunting) with rxFrame := none, rxDropped := false }) f
    else (cfg, w)
  | _, _ => (cfg, w)

/-- Whether a line is enabled as a multidrop line. -/
def Line.multidrop (x : Line) : Bool := x.enabled && x.format == .f9M

/-! ### The commands of a line -/

/-- R163, R165: CHARACTER_RECEIVED. -/
def execCharacterReceived (line : LineId) (char : LineChar) (s : State) : Host.Outcome State Fault Refusal :=
  if (s.work.line line).enabled && (s.work.line line).format != .f9M then
    s.with (receive s.cfg s.work line (lineChar (s.work.line line).format char))
  else .next s

/-- R163, R170: UPSTREAM_CHARACTER. -/
def execUpstreamCharacter (line : LineId) (char : LineChar) (s : State) : Host.Outcome State Fault Refusal :=
  if (s.work.line line).multidrop then s.with (receiveUpstream s.cfg s.work line (lineChar .f9M char)) else .next s

/-- R166, R170: GAP_TIMEOUT. -/
def execGapTimeout (line : LineId) (s : State) : Host.Outcome State Fault Refusal :=
  s.goOn (if (s.work.line line).enabled then gapStep s.cfg s.work line else s.work)

/-- R166: QUIET_TIMEOUT. -/
def execQuietTimeout (line : LineId) (s : State) : Host.Outcome State Fault Refusal :=
  s.goOn (if (s.work.line line).enabled ∧ (s.work.line line).rx = .quiet then
    s.work.updLine line (·.clearRx .hunting) else s.work)

/-- R167: HELD_FRAME_TAKEN. -/
def execHeldFrameTaken (line : LineId) (s : State) : Host.Outcome State Fault Refusal :=
  if (s.work.line line).enabled then s.with (takeHeld s.cfg s.work line) else .next s

/-- R168, R120: FRAME_SENT. -/
def execFrameSent (line : LineId) (s : State) : Host.Outcome State Fault Refusal := s.goOn (s.work.sent line)

/-- R169: POLL_BEGIN. -/
def execPollBegin (line : LineId) (s : State) : Host.Outcome State Fault Refusal :=
  s.goOn (if (s.work.line line).multidrop then s.work.pollBegin s.cfg line else s.work)

/-- R169: POLL_SENT. -/
def execPollSent (line : LineId) (s : State) : Host.Outcome State Fault Refusal :=
  s.goOn (s.work.updLine line Line.openWindow)

/-- R170: ANSWER_WINDOW_EXPIRY. -/
def execAnswerWindowExpiry (line : LineId) (s : State) : Host.Outcome State Fault Refusal :=
  s.goOn (if (s.work.line line).poll.state = .window then visitMissed s.cfg s.work line else s.work)

/-- R169: POLL_PAUSE_END. -/
def execPollPauseEnd (line : LineId) (s : State) : Host.Outcome State Fault Refusal :=
  s.goOn (s.work.updLine line Line.nextCycle)

/-- R172: DESK_READY_CHANGE. -/
def execDeskReadyChange (line : LineId) (level : Bool) (s : State) : Host.Outcome State Fault Refusal :=
  s.goOn (s.work.deskReady line level)

/-- R172: NEGATION_TIMER_EXPIRY. -/
def execNegationTimerExpiry (line : LineId) (s : State) : Host.Outcome State Fault Refusal :=
  s.goOn (s.work.negationEnd line)

end Sys2Proof.Machine
end

