-- ==== Sys2Proof/Machine/Drives.lean ====
section
/-! DEFINITION. The commands of a drive: its lines (R6, R158), its movements (R142 to R144), its transfers (R152 to R157),
its head-unload timer (R160), and the steps of the scheduler and the buffer pool. -/

namespace Sys2Proof.Machine

open Sys2Proof

/-! ### Lines and timers -/

/-- R6: the ready line's level changes: away from the taken level the debounce starts, and back to it it stops. -/
def Drive.readyChange (dr : Drive) (level : Bool) : Drive :=
  { dr with readyLine := level,
            debounce := if dr.enabled = false ∨ dr.readyLine = level then dr.debounce
              else if level = dr.takenLevel then none else some Config.debounceMs }

/-- R6: READY_LINE_CHANGE; the levels of the drive's lines are its operands (log 5). -/
def execReadyLineChange (drive : DriveId) (level protect : Bool) (s : State) : Host.Outcome State Fault Refusal :=
  s.goOn (s.work.updDrive drive fun dr => { dr.readyChange level with protectLine := protect })

/-- R6, R7, R13: the debounce timer expires, and the new level is taken. -/
def Work.debounceEnd (w : Work) (d : DriveId) : Work :=
  let dr := w.drive d
  if dr.debounce.isSome ∧ dr.enabled ∧ dr.readyLine ≠ dr.takenLevel then
    let w := w.updDrive d fun dr => { dr with debounce := none }
    if dr.readyLine then w.takenRise d else w.takenFall d
  else w

/-- R6, R7, R12: DEBOUNCE_EXPIRY. -/
def execDebounceExpiry (drive : DriveId) (s : State) : Host.Outcome State Fault Refusal :=
  s.settled (s.work.debounceEnd drive)

/-- R153, R155: an index pulse passes in the attempt under way. -/
def Drive.countPulse (dr : Drive) : Drive :=
  if dr.mech = .transferring then { dr with attempt := { dr.attempt with pulses := dr.attempt.pulses + 1 } } else dr

/-- R158: INDEX_PULSE. -/
def execIndexPulse (drive : DriveId) (protect : Bool) (s : State) : Host.Outcome State Fault Refusal :=
  s.goOn (s.work.updDrive drive fun dr =>
    { dr.countPulse with protectLine := protect, indexWatch := dr.indexWatch.map fun _ => Config.indexWatchMs })

/-- R14, R158: INDEX_WATCH_EXPIRY. -/
def execIndexWatchExpiry (drive : DriveId) (s : State) : Host.Outcome State Fault Refusal :=
  if (s.work.drive drive).indexWatch.isSome then s.settled (s.work.driveFaulted drive .indexLoss)
  else .next s

/-! ### Movements -/

/-- R142: HEAD_LOAD_END. -/
def execHeadLoadEnd (drive : DriveId) (s : State) : Host.Outcome State Fault Refusal :=
  if (s.work.drive drive).mech = .loading then s.settled (s.work.updDrive drive (Drive.loadEnd s.cfg)) else .next s

/-- R143: STEP_INTERVAL_EXPIRY. -/
def execStepIntervalExpiry (drive : DriveId) (s : State) : Host.Outcome State Fault Refusal :=
  if (s.work.drive drive).mech = .stepping then s.settled (s.work.updDrive drive (Drive.stepEnd s.cfg)) else .next s

/-- R143, R144, R149: the 15 ms of a settle end. -/
def Work.settleDone (cfg : Cfg) (w : Work) (d : DriveId) : Work :=
  match (w.drive d).runOn, (w.drive d).current with
  | false, some op => if op.kind = .recalibrate then w.endOp d else w.updDrive d (Drive.seek cfg op.track)
  | true, _ | false, none => w.updDrive d Drive.stopRun

/-- R143: SETTLE_END. -/
def execSettleEnd (drive : DriveId) (s : State) : Host.Outcome State Fault Refusal :=
  if (s.work.drive drive).mech = .settling then s.settled (s.work.settleDone s.cfg drive) else .next s

/-- R144, R149: one look at the track-0 signal, and the step that follows. -/
def Work.recalStep (cfg : Cfg) (w : Work) (d : DriveId) (track0 : Bool) : Work :=
  let dr := w.drive d
  if dr.runOn then w.updDrive d fun dr => { dr.stopRun with head := none }
  else if track0 then w.updDrive d fun dr => { dr.settleHead with head := some 0 }
  else if Config.recalibrateLimit ≤ dr.recalSteps then w.driveFaulted d .track0NotFound
  else w.updDrive d fun dr => { dr.stepHead with recalSteps := dr.recalSteps + 1, moveTimer := some cfg.stepRate }

/-- R144: RECALIBRATE_STEP; the track-0 signal is its operand (log 5). -/
def execRecalibrateStep (drive : DriveId) (track0 : Bool) (s : State) : Host.Outcome State Fault Refusal :=
  if (s.work.drive drive).mech = .recalibrating then s.settled (s.work.recalStep s.cfg drive track0) else .next s

/-! ### Transfers -/

/-- R153, R154, R155: whether an operation reads back what it wrote: a WRITE_SECTORS only where write verify was set at its
grant. -/
def OpKind.verifies (verify : Bool) : OpKind → Bool
  | .writeSectors => verify
  | .catalogueWrite | .labelWrite | .formatTrack => true
  | .recalibrate | .readTrack => false

/-- R153, R154, R155: the index pulse of the attempt that ends the write pass of a kind at the latest. -/
def OpKind.lastWritePulse : OpKind → Nat
  | .formatTrack => 2
  | .writeSectors | .catalogueWrite | .labelWrite => 3
  | .recalibrate | .readTrack => 0

/-- R153 to R155, R157: the drive is in a write pass: an operation that writes is transferring, its attempt has not come to a
verify pass, and no index pulse has ended its write pass; that of a FORMAT_TRACK is taken to begin with the grant and not with
the first index pulse: the model's choices (log 32). -/
def Drive.inWritePass (dr : Drive) (verifying : Bool) : Bool :=
  dr.mech == .transferring && dr.current.any fun op =>
    op.kind.writes && decide (dr.attempt.pulses < op.kind.lastWritePulse)
      && !(verifying && op.kind.verifies dr.attempt.verify)

/-- R157: WRITE_FAULT_LINE; in which pass the transfer stands is its operand (log 32). -/
def execWriteFaultLine (fault : WriteFault) (s : State) : Host.Outcome State Fault Refusal :=
  if (s.work.drive fault.drive).inWritePass fault.verifying then s.settled (s.work.failAtOnce fault.drive .writeFault)
  else .next s

/-- R152: READ_TRACK_ATTEMPT_END; what was read is its operand (log 6). -/
def execReadTrackAttemptEnd (drive : DriveId) (wrongTrack : Bool) (sectors : List SectorRead) (s : State) :
    Host.Outcome State Fault Refusal :=
  s.settled (s.work.attemptEnd s.cfg drive .readTrack (·.afterRead wrongTrack sectors) (·.bad == []) wrongTrack)

/-- R153: WRITE_SECTORS_ATTEMPT_END. -/
def execWriteSectorsAttemptEnd (drive : DriveId) (wrongTrack : Bool) (sectors : List SectorWrite) (s : State) :
    Host.Outcome State Fault Refusal :=
  s.settled (s.work.attemptEnd s.cfg drive .writeSectors (·.afterWrite wrongTrack sectors) (·.bad == []) wrongTrack)

/-- R154, R36: CATALOGUE_WRITE_ATTEMPT_END. -/
def execCatalogueWriteAttemptEnd (drive : DriveId) (wrongTrack : Bool) (result : SectorWrite) (s : State) :
    Host.Outcome State Fault Refusal :=
  s.settled (s.work.attemptEnd s.cfg drive .catalogueWrite (·.afterSector wrongTrack result)
    (fun a => !wrongTrack && a.lastClass == some .newImage) wrongTrack)

/-- R154, R27: LABEL_WRITE_ATTEMPT_END. -/
def execLabelWriteAttemptEnd (drive : DriveId) (wrongTrack : Bool) (result : SectorWrite) (s : State) :
    Host.Outcome State Fault Refusal :=
  s.settled (s.work.attemptEnd s.cfg drive .labelWrite (·.afterSector wrongTrack result)
    (fun a => !wrongTrack && a.lastClass == some .newImage) wrongTrack)

/-- R155, R20: FORMAT_TRACK_ATTEMPT_END. -/
def execFormatTrackAttemptEnd (drive : DriveId) (wrongTrack : Bool) (sectors : List SectorRead) (s : State) :
    Host.Outcome State Fault Refusal :=
  s.settled (s.work.attemptEnd s.cfg drive .formatTrack (·.afterFormat wrongTrack sectors) (·.bad == []) wrongTrack)

/-! ### The scheduler and the pool -/

/-- R112: DISPATCH. -/
def execDispatch (drive : DriveId) (s : State) : Host.Outcome State Fault Refusal :=
  s.settled (s.work.dispatch s.cfg drive)

/-- R63: LABEL_STEP. -/
def execLabelStep (drive : DriveId) (s : State) : Host.Outcome State Fault Refusal := s.settled (s.work.labelStep drive)

/-- R64, R34: CATALOGUE_STEP. -/
def execCatalogueStep (drive : DriveId) (s : State) : Host.Outcome State Fault Refusal :=
  s.settled (s.work.catalogueStep drive)

/-- R21: FORMAT_RECORDS. -/
def execFormatRecords (drive : DriveId) (s : State) : Host.Outcome State Fault Refusal :=
  s.settled (s.work.formatRecords drive)

/-- R128: WAIT_LIST_SERVICE. -/
def execWaitListService (s : State) : Host.Outcome State Fault Refusal := s.settled s.work.serveWaiters

/-- R136, R137: RELOCATION of the first sector of a buffer's relocations pending list. -/
def execRelocation (buffer : BufId) (s : State) : Host.Outcome State Fault Refusal := s.settled (s.work.relocate buffer)

/-- R138, R160: the head-unload timer expires. -/
def Work.unloadExpiry (w : Work) (d : DriveId) : Work :=
  if (w.drive d).unloadTimer.isSome then
    (w.updDrive d fun dr => { dr with unloadTimer := none, unloadPending := true, idleRelocs := [] }).idleFlush d
  else w

/-- R160, R138: HEAD_UNLOAD_EXPIRY. -/
def execHeadUnloadExpiry (drive : DriveId) (s : State) : Host.Outcome State Fault Refusal :=
  s.settled (s.work.unloadExpiry drive)

end Sys2Proof.Machine
end

