-- ==== Sys2Proof/Machine/Dispatch.lean ====
section
/-! DEFINITION. The meaning of every command: one arm per constructor of Instr. -/

namespace Sys2Proof.Machine

open Sys2Proof

def exec (i : Instr) (s : State) : Host.Outcome State Fault Refusal :=
  match i with
  | .powerOn pins => Sys2Proof.Machine.execPowerOn pins s
  | .list env drive filter start => Sys2Proof.Machine.execList env drive filter start s
  | .listNextFrame desk => Sys2Proof.Machine.execListNextFrame desk s
  | .openRead env drive slug => Sys2Proof.Machine.execOpenRead env drive slug s
  | .openEdit env drive slug => Sys2Proof.Machine.execOpenEdit env drive slug s
  | .create env drive slug basket => Sys2Proof.Machine.execCreate env drive slug basket s
  | .read env handle count offset => Sys2Proof.Machine.execRead env handle count offset s
  | .write env handle offset data => Sys2Proof.Machine.execWrite env handle offset data s
  | .file env handle => Sys2Proof.Machine.execFile env handle s
  | .discard env handle => Sys2Proof.Machine.execDiscard env handle s
  | .close env handle => Sys2Proof.Machine.execClose env handle s
  | .kill env drive slug => Sys2Proof.Machine.execKill env drive slug s
  | .breakCheckOut env drive slug => Sys2Proof.Machine.execBreak env drive slug s
  | .status env drive => Sys2Proof.Machine.execStatus env drive s
  | .cancel env => Sys2Proof.Machine.execCancel env s
  | .format env drive name serial sides => Sys2Proof.Machine.execFormat env drive name serial sides s
  | .remount env drive => Sys2Proof.Machine.execRemount env drive s
  | .set env item qualifier value => Sys2Proof.Machine.execSet env item qualifier value s
  | .setClass env line drop cls => Sys2Proof.Machine.execSetClass env line drop cls s
  | .setLineEnable env line value => Sys2Proof.Machine.execSetLineEnable env line value s
  | .setDriveEnable env drive value => Sys2Proof.Machine.execSetDriveEnable env drive value s
  | .query env item qualifier => Sys2Proof.Machine.execQuery env item qualifier s
  | .ruleRead env index => Sys2Proof.Machine.execRuleRead env index s
  | .ruleWrite env index fields => Sys2Proof.Machine.execRuleWrite env index fields s
  | .editionRead env index => Sys2Proof.Machine.execEditionRead env index s
  | .editionWrite env index fields => Sys2Proof.Machine.execEditionWrite env index fields s
  | .clock env minute => Sys2Proof.Machine.execClock env minute s
  | .lineStatus env line => Sys2Proof.Machine.execLineStatus env line s
  | .restart env => Sys2Proof.Machine.execRestart env s
  | .restartClearing => Sys2Proof.Machine.execRestartClearing s
  | .unknownKindFrame env code => Sys2Proof.Machine.execUnknownKindFrame env code s
  | .noticeAdmission line => Sys2Proof.Machine.execNoticeAdmission line s
  | .dispatch drive => Sys2Proof.Machine.execDispatch drive s
  | .labelStep drive => Sys2Proof.Machine.execLabelStep drive s
  | .catalogueStep drive => Sys2Proof.Machine.execCatalogueStep drive s
  | .formatRecords drive => Sys2Proof.Machine.execFormatRecords drive s
  | .readyLineChange drive level protect => Sys2Proof.Machine.execReadyLineChange drive level protect s
  | .debounceExpiry drive => Sys2Proof.Machine.execDebounceExpiry drive s
  | .indexPulse drive protect => Sys2Proof.Machine.execIndexPulse drive protect s
  | .indexWatchExpiry drive => Sys2Proof.Machine.execIndexWatchExpiry drive s
  | .headLoadEnd drive => Sys2Proof.Machine.execHeadLoadEnd drive s
  | .stepIntervalExpiry drive => Sys2Proof.Machine.execStepIntervalExpiry drive s
  | .settleEnd drive => Sys2Proof.Machine.execSettleEnd drive s
  | .recalibrateStep drive track0 => Sys2Proof.Machine.execRecalibrateStep drive track0 s
  | .writeFaultLine fault => Sys2Proof.Machine.execWriteFaultLine fault s
  | .readTrackAttemptEnd drive wrongTrack sectors => Sys2Proof.Machine.execReadTrackAttemptEnd drive wrongTrack sectors s
  | .writeSectorsAttemptEnd drive wrongTrack sectors => Sys2Proof.Machine.execWriteSectorsAttemptEnd drive wrongTrack sectors s
  | .catalogueWriteAttemptEnd drive wrongTrack result => Sys2Proof.Machine.execCatalogueWriteAttemptEnd drive wrongTrack result s
  | .labelWriteAttemptEnd drive wrongTrack result => Sys2Proof.Machine.execLabelWriteAttemptEnd drive wrongTrack result s
  | .formatTrackAttemptEnd drive wrongTrack sectors => Sys2Proof.Machine.execFormatTrackAttemptEnd drive wrongTrack sectors s
  | .waitListService => Sys2Proof.Machine.execWaitListService s
  | .relocation buffer => Sys2Proof.Machine.execRelocation buffer s
  | .headUnloadExpiry drive => Sys2Proof.Machine.execHeadUnloadExpiry drive s
  | .minuteExpiry => Sys2Proof.Machine.execMinuteExpiry s
  | .characterReceived line char => Sys2Proof.Machine.execCharacterReceived line char s
  | .gapTimeout line => Sys2Proof.Machine.execGapTimeout line s
  | .quietTimeout line => Sys2Proof.Machine.execQuietTimeout line s
  | .heldFrameTaken line => Sys2Proof.Machine.execHeldFrameTaken line s
  | .frameSent line => Sys2Proof.Machine.execFrameSent line s
  | .pollBegin line => Sys2Proof.Machine.execPollBegin line s
  | .pollSent line => Sys2Proof.Machine.execPollSent line s
  | .upstreamCharacter line char => Sys2Proof.Machine.execUpstreamCharacter line char s
  | .answerWindowExpiry line => Sys2Proof.Machine.execAnswerWindowExpiry line s
  | .pollPauseEnd line => Sys2Proof.Machine.execPollPauseEnd line s
  | .deskReadyChange line level => Sys2Proof.Machine.execDeskReadyChange line level s
  | .negationTimerExpiry line => Sys2Proof.Machine.execNegationTimerExpiry line s

end Sys2Proof.Machine
end

