-- ==== Sys2Proof/Safety.lean ====
section
/-! DEFINITION. The words that the statements about the DF-84 are written in: when a desk's request is served, the state
with one more reply, and the invariants. -/

namespace Sys2Proof.Machine

open Sys2Proof

/-! ### Requests -/

/-- The frame that a desk's command hands to Intake (log 3). -/
def frameOf : Instr → Option Frame
  | .list e d f n => some ⟨e, .list d f n⟩
  | .openRead e d g => some ⟨e, .openRead d g⟩
  | .openEdit e d g => some ⟨e, .openEdit d g⟩
  | .create e d g b => some ⟨e, .create d g b⟩
  | .read e h c o => some ⟨e, .read h c o⟩
  | .write e h o x => some ⟨e, .write h o x⟩
  | .file e h => some ⟨e, .file h⟩
  | .discard e h => some ⟨e, .discard h⟩
  | .close e h => some ⟨e, .close h⟩
  | .kill e d g => some ⟨e, .kill d g⟩
  | .breakCheckOut e d g => some ⟨e, .breakCheckOut d g⟩
  | .status e d => some ⟨e, .status d⟩
  | .cancel e => some ⟨e, .cancel⟩
  | .format e d n s k => some ⟨e, .format d n s k⟩
  | .remount e d => some ⟨e, .remount d⟩
  | .set e i q v => some ⟨e, .set i q v⟩
  | .setClass e l d c => some ⟨e, .setClass l d c⟩
  | .setLineEnable e l v => some ⟨e, .setLineEnable l v⟩
  | .setDriveEnable e d v => some ⟨e, .setDriveEnable d v⟩
  | .query e i q => some ⟨e, .query i q⟩
  | .ruleRead e i => some ⟨e, .ruleRead i⟩
  | .ruleWrite e i f => some ⟨e, .ruleWrite i f⟩
  | .editionRead e i => some ⟨e, .editionRead i⟩
  | .editionWrite e i f => some ⟨e, .editionWrite i f⟩
  | .clock e m => some ⟨e, .clock m⟩
  | .lineStatus e l => some ⟨e, .lineStatus l⟩
  | .restart e => some ⟨e, .restart⟩
  | .unknownKindFrame e c => some ⟨e, .unknown c⟩
  | _ => none

/-- R106: Intake takes a frame of the desk now: its line is enabled with room in its transmit queue, and the part is not
RESTARTING. -/
def Heard (s : State) (desk : DeskNo) : Prop :=
  (s.work.line (lineOf desk)).enabled = true ∧ (s.work.line (lineOf desk)).tx.length ≤ 10 ∧ s.work.restarting = false

/-- R106, R107, R80, R118: a request of a kind passes to its own checks, and its reply reaches the line: the desk is
PRESENT, has nothing outstanding, and is of a class that may send it. -/
def Served (s : State) (desk : DeskNo) (k : ReqKind) : Prop :=
  Heard s desk ∧ (s.work.desk desk).presence = .present ∧ (s.work.desk desk).outstanding = none ∧
    classMay (s.cfg.cls desk) k = true

/-- The work with one more reply at the tail of the desk's transmit queue (R118), and nothing else changed. -/
def Work.withReply (w : Work) (desk : DeskNo) (r : Reply) : Work := w.updLine (lineOf desk) (·.push ⟨desk, .reply r⟩)

/-- The state with one more reply at the tail of the desk's transmit queue (R118), and nothing else changed. -/
def State.withReply (s : State) (desk : DeskNo) (r : Reply) : State := { s with work := s.work.withReply desk r }

/-- R118: an OK reply. -/
def okReply (k : ReqKind) (env : Envelope) (body : ReplyBody) : Reply := ⟨some k, env.tag, .ok, body⟩

/-- R118: a refusal without fields. -/
def refusal (k : ReqKind) (env : Envelope) (code : ResultCode) : Reply := ⟨some k, env.tag, code, .none⟩

/-- R107, R110: the state in which a request waits in a slot of the request queue and is its desk's outstanding
request. -/
def State.withWaiting (s : State) (env : Envelope) (q : QSlot) (job : Job) (d : DriveId) : State :=
  { s with work :=
      (({ s.work with nextArrival := s.work.nextArrival + 1 }.setEntry q
        (some ⟨env.desk, env.tag, job, d, s.work.nextArrival, (s.work.drive d).vol == VolState.mounting, none⟩)).updDesk
        env.desk fun k => { k with outstanding := some ⟨env.tag, some (jobKind job), none⟩ }) }

/-- R107, R118: what a work holds once the request in a slot of the queue has been replied to: its entry has left the queue,
its desk has nothing outstanding, and the reply stands at the tail of the desk's transmit queue. -/
def Work.Replied (w : Work) (q : QSlot) (e : Entry) (code : ResultCode) (body : ReplyBody) (w' : Work) : Prop :=
  w'.entry q = none ∧ (w'.desk e.desk).outstanding = none ∧
    w'.line (lineOf e.desk) = (w.withReply e.desk ⟨some (jobKind e.job), e.tag, code, body⟩).line (lineOf e.desk)

/-- R42, R50, R53: a drive is enabled and its volume MOUNTED, PROTECTED or WRITE_FAULTED, and so has a catalogue. -/
def Mounted (s : State) (d : DriveId) (m : Media) : Prop :=
  (s.work.drive d).enabled = true ∧ (s.work.drive d).vol.present = true ∧ (s.work.drive d).media = some m

/-! ### The staging release -/

/-- R124: a sector of a buffer that holds a block of a drive's volume. -/
def Work.HoldsBlock (w : Work) (d : DriveId) (sides block : Nat) (b : BufId) (k : Fin 15) : Prop :=
  (w.buffer b).state ≠ .free ∧ (w.buffer b).key = some (keyOf d sides block) ∧ k = blockSector block

/-- R68: a block whose sector stands on a relocations pending list. -/
def Work.FailingBlock (w : Work) (d : DriveId) (sides block : Nat) : Prop :=
  ∃ b k, w.HoldsBlock d sides block b k ∧ k ∈ (w.buffer b).pending

/-- R124: no two buffers that are not FREE hold the same track-side. -/
def Work.KeysDistinct (w : Work) : Prop :=
  ∀ a b, (w.buffer a).state ≠ .free → (w.buffer b).state ≠ .free → (w.buffer a).key = (w.buffer b).key → a = b

/-- R68, R33, R135, R26: what a work holds of a volume and of the buffers once the staging of a check-out is released: each
staged block FREE, or BAD where its sector awaits a relocation; such a block recorded for the label, in the byte order of the
staging list (log 46) while the list has room, with a label write queued (log 24), unless the volume is WRITE_FAULTED; the slot
of a new story EMPTY; the DIRTY sectors of the staged blocks ABSENT; and every other block and sector as it was. -/
def Work.StagingReleased (w w' : Work) (hd : Handle) (st : Staging) (m : Media) : Prop :=
  let staged := blocksOf st.extents
  let holds := w.HoldsBlock hd.drive m.label.sides
  let failing := w.FailingBlock hd.drive m.label.sides
  let known := m.label.badBlocks.length + m.additions.length
  ∃ x, (w'.drive hd.drive).media = some x ∧ x.label = m.label ∧
    x.catalogue = (if st.newStory = true then m.catalogue.set hd.slot .empty else m.catalogue) ∧
    (∀ block ∈ staged, (failing block → cellState x.cells block = .bad) ∧
      (¬ failing block → cellState x.cells block = .free)) ∧
    (∀ block, block ∉ staged → cellState x.cells block = cellState m.cells block) ∧
    (((∀ block ∈ staged, ¬ failing block) ∨ (w.drive hd.drive).vol = .writeFaulted) →
      x.additions = m.additions ∧ x.badListFull = m.badListFull) ∧
    (∀ bad, (w.drive hd.drive).vol ≠ .writeFaulted → bad.Sublist staged → (∀ block ∈ bad, failing block) →
      (∀ block ∈ staged, failing block → staged.count block = bad.count block) → bad ≠ [] →
      x.additions = m.additions ++ bad.take (16 - known) ∧
        (x.badListFull = true ↔ m.badListFull = true ∨ 16 < known + bad.length) ∧
        ∃ op ∈ (w'.drive hd.drive).queued, op.kind = .labelWrite ∧ op.transferring = false) ∧
    ∀ b k, ((∃ block ∈ staged, holds block b k) → ((w.buffer b).sectors[(k : Fin 15)]).cell.isDirty = true →
        ((w'.buffer b).sectors[k]).cell = .absent) ∧
      ((∀ block ∈ staged, ¬ holds block b k) ∨ ((w.buffer b).sectors[k]).cell.isDirty = false →
        ((w'.buffer b).sectors[k]).cell = ((w.buffer b).sectors[k]).cell)

/-! ### Invariants -/

/-- R81: at least one desk is SUPERVISOR. -/
def HasSupervisor (cfg : Cfg) : Prop := ∃ k : DeskNo, cfg.cls k = .supervisor

/-- R90: a basket list is 1 to 12 distinct baskets, 0 to 63. -/
def BasketsInRange (bs : List Nat) : Prop := 1 ≤ bs.length ∧ bs.length ≤ 12 ∧ (∀ b ∈ bs, b ≤ 63) ∧ bs.Nodup

/-- R90: the fields of an edition entry are in their ranges. -/
def Edition.InRange (e : Edition) : Prop :=
  nameOk e.name = true ∧ e.close ≤ 1439 ∧ e.reopen ≤ 1439 ∧ e.lead ≤ 60 ∧ e.close ≠ e.reopen ∧
    e.lead < forward e.reopen e.close ∧ BasketsInRange e.baskets ∧ ∀ bs ∈ e.pendingBaskets, BasketsInRange bs

/-- R176, R82, R90, R92: every setting of the part as a whole lies in its range. -/
def Cfg.InRange (cfg : Cfg) : Prop :=
  cfg.rateP ∈ [1200, 2400, 4800, 9600, 19200] ∧ cfg.rateQ ∈ [1200, 2400, 4800, 9600, 19200] ∧ cfg.pollPause ≤ 500 ∧
    2 ≤ cfg.missThreshold ∧ cfg.missThreshold ≤ 8 ∧ cfg.stepRate ∈ [3, 6, 10, 15] ∧
    2 ≤ cfg.headUnload ∧ cfg.headUnload ≤ 60 ∧ 1 ≤ cfg.retryLimit ∧ cfg.retryLimit ≤ 8 ∧
    (∀ i : Fin 16, (cfg.rules[i]).low ≤ (cfg.rules[i]).high ∧ (cfg.rules[i]).high ≤ 63) ∧
    (∀ i : Fin 6, (cfg.editions[i]).InRange) ∧ ∀ m, cfg.clock = .running m → m ≤ 1439

/-- R24, R126: the free-space map of every volume keeps its canonical form, and the pool's order of use names each buffer
once. -/
def Work.TablesInForm (w : Work) : Prop :=
  (∀ d m, (w.drive d).media = some m → cellsFrom 0 m.cells = true) ∧ w.lru.Perm allBuffers

/-- R145, R140: a drive's operation queue holds at most 16 operations, and its head lies on a track. -/
def Drive.InBounds (dr : Drive) : Prop := dr.ops.length ≤ 16 ∧ ∀ t ∈ dr.head, t ≤ 76

/-- R166: no error count passes 65,535. -/
def Counts.InBounds (c : Counts) : Prop :=
  c.parity ≤ 65535 ∧ c.framing ≤ 65535 ∧ c.gap ≤ 65535 ∧ c.check ≤ 65535 ∧ c.length ≤ 65535 ∧ c.stray ≤ 65535 ∧
    c.wrongForm ≤ 65535

/-- R162, R168, R169, R120, R176: a line's counts, its drop list, its answer window, its poll position and cycle count, and the
drop last admitted lie in their ranges; its transmit queue holds at most twelve frames, four of them notices, and the replies
that wait for room in it wait only while it is full (log 11). -/
def Line.InBounds (x : Line) : Prop :=
  x.tx.length ≤ 12 ∧ x.tx.countP TxFrame.isNotice ≤ 4 ∧ (∀ f ∈ x.txWait, f.isNotice = false) ∧
    (x.tx.length < 12 → x.txWait = []) ∧ x.counts.InBounds ∧ x.drops ≠ [] ∧ (∀ n ∈ x.drops, 1 ≤ n ∧ n ≤ 8) ∧ 20 ≤ x.answerWindow ∧ x.answerWindow ≤ 200 ∧
    1 ≤ x.poll.position ∧ x.poll.position ≤ 8 ∧ x.poll.cycle ≤ 7 ∧ 1 ≤ x.dropLastAdmitted ∧ x.dropLastAdmitted ≤ 8

/-- R119, R145, R162: the lists and counters of the part keep within their capacities. -/
def Work.InBounds (w : Work) : Prop :=
  (∀ k, (w.desk k).notices.length ≤ 4) ∧ (∀ d, (w.drive d).InBounds) ∧ ∀ l, (w.line l).InBounds

/-- R150, R141, R158: the drive that owns the channel is the one that is TRANSFERRING; a drive is NOT_READY exactly while
its taken level is low; its index watch runs exactly while it is neither NOT_READY nor FAULTED. -/
def Work.ChannelAgrees (w : Work) : Prop :=
  (∀ d, w.owner = some d ↔ (w.drive d).mech = .transferring) ∧
    (∀ d, (w.drive d).takenLevel = false ↔ (w.drive d).mech = .notReady) ∧
    ∀ d, (w.drive d).indexWatch = none ↔ (w.drive d).mech = .notReady ∨ (w.drive d).mech = .faulted

/-! ### Records -/

/-- R5: an extent of a volume. -/
def Extent.InRange (e : Extent) : Prop := e.start < 65536 ∧ 1 ≤ e.length ∧ e.length ≤ 64

/-- R29: the fields of a FILED story are in their ranges. -/
def Story.InRange (st : Story) : Prop :=
  slugOk st.slug = true ∧ st.basket ≤ 63 ∧ 1 ≤ st.version ∧ st.version ≤ 9999 ∧ st.length ≤ 32768 ∧
    (∀ m ∈ st.minute, m ≤ 1439) ∧ st.extents.length ≤ 8 ∧ ∀ e ∈ st.extents, e.InRange

/-- R3: the fields of a valid label. -/
def Label.Valid (l : Label) : Prop :=
  nameOk l.name = true ∧ 1 ≤ l.serial ∧ l.serial ≤ 999999 ∧ (l.sides = 1 ∨ l.sides = 2) ∧ l.badBlocks.length ≤ 16 ∧
    (∀ b ∈ l.badBlocks, isDataBlock l.sides b = true) ∧ l.badBlocks.Nodup

end Sys2Proof.Machine
end

