-- ==== Sys2Proof/Certificates/Slice0/Obligations.lean ====
section
/-! DEFINITION. The statements about the DF-84 that the provers prove. -/

open Sys2Proof Sys2Proof.Machine

/-! ### The step and the whole -/

/-- The block form: a step takes the command at the front of the queue and carries it out on the state with the queue's
rest; with no command waiting the block idles, which is the model's choice (log 2). -/
def Obligations.StepRunsFrontCommand : Prop :=
  (∀ (c : Instr) (rest : List Instr) (s : State),
    step { s with pending := c :: rest } = exec c { s with pending := rest }) ∧
  ∀ s : State, s.pending = [] → step s = .next s

/-- No command makes the part stop, and none touches the commands that wait. What comes at once after an event is a run of
effects, each the first that is due of the drives' ACTIVE requests, the mounts, the relocations, the channel and the drives, in
that order and each in ascending number, until none is due or 256 have been carried out: the model's choice (log 8, log 9). -/
def Obligations.EveryCommandGoesOn : Prop :=
  (∀ (c : Instr) (s : State), ∃ t, exec c s = .next t ∧ t.pending = s.pending) ∧
  ∀ (cfg : Cfg) (w : Work),
    let noRequest := ∀ d, w.advance d = none
    let noMount := ∀ d, w.stepMount d = none
    let noRelocation := ∀ b, w.stepReloc b = none
    (∃ (n : Nat) (f : Nat → Work), n ≤ 256 ∧ f 0 = w ∧ f n = settle cfg w ∧
      (∀ i, i < n → settleOne cfg (f i) = some (f (i + 1))) ∧ (n < 256 → settleOne cfg (settle cfg w) = none)) ∧
    (∀ d x, w.advance d = some x → (∀ c, c < d → w.advance c = none) → settleOne cfg w = some x) ∧
    (∀ d x, noRequest → w.stepMount d = some x → (∀ c, c < d → w.stepMount c = none) → settleOne cfg w = some x) ∧
    (∀ b x, noRequest → noMount → w.stepReloc b = some x → (∀ c, c < b → w.stepReloc c = none) →
      settleOne cfg w = some x) ∧
    (∀ x, noRequest → noMount → noRelocation → w.stepChannel cfg = some x → settleOne cfg w = some x) ∧
    (∀ d x, noRequest → noMount → noRelocation → w.stepChannel cfg = none → w.stepDrive cfg d = some x →
      (∀ c, c < d → w.stepDrive cfg c = none) → settleOne cfg w = some x) ∧
    (settleOne cfg w = none ↔ noRequest ∧ noMount ∧ noRelocation ∧ w.stepChannel cfg = none ∧
      ∀ d, w.stepDrive cfg d = none)

/-- R181 with R176, R82, R90, R92, R107, R119, R6, R112, R140, R150, R126, R162, R169, R173, R174: what POWER_ON leaves, whatever
stood before; and reset is power-on with every input line low and no command waiting, which is the model's choice (log 5), as
is the poll sequencer of a disabled line, which stands READY at its first drop with its timer stopped (log 30). -/
def Obligations.PowerOnState : Prop :=
  (∀ (pins : Pins) (s : State), ∃ t, exec (.powerOn pins) s = .next t ∧
    (t.cfg.rateP = 9600 ∧ t.cfg.rateQ = 1200 ∧ t.cfg.pollPause = 20 ∧ t.cfg.missThreshold = 3 ∧ t.cfg.stepRate = 6 ∧
      t.cfg.headUnload = 10 ∧ t.cfg.retryLimit = 3 ∧ t.cfg.writeVerify = true) ∧
    (∀ k, t.cfg.cls k = if k = 0 then .supervisor else .reporter) ∧
    (∀ i : Fin 16, t.cfg.rules[i] = ⟨false, 0, 0, false, ⟨false, false, false, false⟩, .none⟩) ∧
    (∀ i : Fin 6, t.cfg.editions[i] = ⟨[0x45, byte (0x30 + i.val)], false, 0, 60, 0, [0], none, .disabled⟩) ∧
    t.cfg.clock = .unset ∧ t.work.restarting = false ∧ t.work.lastRestart = .powerOn ∧
    (∀ k, t.work.desk k = ⟨.unknown, 0, none, [], false⟩) ∧
    (∀ l, (t.work.line l).enabled = (l == 0) ∧ (t.work.line l).format = .f9M ∧ (t.work.line l).generator = .p ∧
      (t.work.line l).drops = [1] ∧ (t.work.line l).answerWindow = 50 ∧ (t.work.line l).rx = .hunting ∧
      (t.work.line l).judgement = (if l = 0 then .unjudged else .disabled) ∧
      (t.work.line l).tx = [] ∧ (t.work.line l).poll = ⟨.ready, 1, 0, none⟩ ∧
      (t.work.line l).counts = ⟨0, 0, 0, 0, 0, 0, 0⟩ ∧ (t.work.line l).dropLastAdmitted = 8) ∧
    (∀ h, t.work.handle h = none) ∧ (∀ r, t.work.record r = none) ∧ (∀ q, t.work.entry q = none) ∧
    (∀ d, (t.work.drive d).enabled = true ∧ (t.work.drive d).vol = .absent ∧ (t.work.drive d).media = none ∧
      (t.work.drive d).takenLevel = false ∧
      (t.work.drive d).debounce = (if pins.ready[d] = true then some 500 else none) ∧
      (t.work.drive d).mech = .notReady ∧ (t.work.drive d).head = none ∧ (t.work.drive d).ops = [] ∧
      (t.work.drive d).appendWait = [] ∧ (t.work.drive d).unloadPending = false ∧
      (t.work.drive d).lastLane = .ordinary ∧ (t.work.drive d).pointer = 31) ∧
    (∀ b, (t.work.buffer b).state = .free ∧ (t.work.buffer b).heldBy = none ∧
      ∀ k : Fin 15, (t.work.buffer b).sectors[k] = ⟨.absent, false⟩) ∧
    t.work.lru = [0, 1, 2, 3, 4, 5] ∧ t.work.waitList = [] ∧ t.work.owner = none ∧ t.work.lastGranted = 3) ∧
  ∀ s : State, exec (.powerOn ⟨Vector.replicate 4 false, Vector.replicate 4 false, Vector.replicate 4 false⟩)
    { s with pending := [] } = .next State.reset

/-! ### Invariants -/

/-- R81: no step leaves the part without a SUPERVISOR desk. -/
def Obligations.StepKeepsSupervisor : Prop :=
  ∀ s t : State, HasSupervisor s.cfg → step s = .next t → HasSupervisor t.cfg

/-- R176, R82, R90, R92: no step takes a setting out of its range. -/
def Obligations.StepKeepsSettingsInRange : Prop := ∀ s t : State, s.cfg.InRange → step s = .next t → t.cfg.InRange

/-- R24, R126: no step spoils the canonical form of a free-space map or the order of the buffers. -/
def Obligations.StepKeepsTablesInForm : Prop :=
  ∀ s t : State, s.work.TablesInForm → step s = .next t → t.work.TablesInForm

/-- R145, R119, R166, R168, R169, R120, R140, R176: no step takes one of these past its bounds: a desk's notices (4), a drive's
operation queue (16), a line's transmit queue (12, of them 4 notices, while the replies that wait for room in it are bounded by
nothing but stand only behind a full queue: log 11), its seven error counts (65,535), its drop list, answer window, poll
position, cycle count and drop last admitted, and a drive's head position. -/
def Obligations.StepKeepsCapacities : Prop := ∀ s t : State, s.work.InBounds → step s = .next t → t.work.InBounds

/-- R150, R141, R158: no step parts the channel's owner from the drive that is TRANSFERRING, or NOT_READY from a low
taken level, or the index watch from the states in which it runs. -/
def Obligations.StepKeepsChannelAgreement : Prop :=
  ∀ s t : State, s.work.ChannelAgrees → step s = .next t → t.work.ChannelAgrees

/-- The invariants hold at reset. -/
def Obligations.ResetMeetsInvariants : Prop :=
  HasSupervisor State.reset.cfg ∧ State.reset.cfg.InRange ∧ State.reset.work.TablesInForm ∧ State.reset.work.InBounds ∧
    State.reset.work.ChannelAgrees

/-! ### Records of a diskette -/

/-- R185: a mount reads back the story whose FILED entry a catalogue write wrote, where the label and the lower-numbered
slots leave it its slug and its blocks (R10). -/
def Obligations.FiledEntryReadsBack : Prop :=
  ∀ (st : Story) (label : Label) (slugs : List Chars) (claimed : List Nat), st.InRange →
    (blocksOf st.extents).length = blocksFor st.length → (blocksOf st.extents).Nodup →
    (∀ b ∈ blocksOf st.extents, isDataBlock label.sides b = true ∧ b ∉ label.badBlocks ∧ b ∉ claimed) →
    st.slug ∉ slugs →
    (filedEntry st).length = 64 ∧ readStory (filedEntry st) = st ∧
      judgeEntry label slugs claimed (filedEntry st) = .filed st none

/-- R3, R8, R185: a mount reads back the label that a label write wrote. -/
def Obligations.LabelReadsBack : Prop :=
  ∀ l : Label, l.Valid → (labelImage l).length = 256 ∧ readLabel (labelImage l) = .valid l

/-- R2: the block number of a place, the place of a block number, the data blocks of a volume of one side and of two, and the
consecutive numbers of a track-side. -/
def Obligations.BlockNamesItsPlace : Prop :=
  (∀ (track side : Nat) (k : Fin 15), blockAt 2 track side k.val = (track * 2 + side) * 15 + k.val ∧
    blockAt 1 track 0 k.val = track * 15 + k.val) ∧
  (∀ b, (isDataBlock 2 b = true ↔ 60 ≤ b ∧ b ≤ 2309) ∧ (isDataBlock 1 b = true ↔ 30 ≤ b ∧ b ≤ 1154)) ∧
  dataBlocks 2 = 2250 ∧ dataBlocks 1 = 1125 ∧
  (∀ b, (blockSector b).val = b % 15 ∧ blockTrack 1 b = b / 15 ∧ blockSide 1 b = 0 ∧ blockTrack 2 b = b / 15 / 2 ∧
    blockSide 2 b = b / 15 % 2) ∧
  (∀ (sides track side : Nat) (k : Fin 15), (sides = 2 ∧ side < 2) ∨ (sides = 1 ∧ side = 0) →
    blockTrack sides (blockAt sides track side k.val) = track ∧
      blockSide sides (blockAt sides track side k.val) = side ∧ blockSector (blockAt sides track side k.val) = k ∧
      (isDataBlock sides (blockAt sides track side k.val) = true ↔ 2 ≤ track ∧ track ≤ 76) ∧
      blockAt sides track side k.val = blockAt sides track side 0 + k.val ∧
      ∀ b, blockAt sides (blockTrack sides b) (blockSide sides b) (blockSector b).val = b) ∧
  ∀ (d : DriveId) (sides b : Nat), keyOf d sides b = ⟨d, blockTrack sides b, blockSide sides b⟩

/-! ### Taking a frame -/

/-- R106, R107, R80, R180, R173: a frame changes nothing while the part is RESTARTING or its line is disabled; one from a desk
whose request is outstanding is answered BUSY with its own tag (a LIST's BUSY body is log 13's choice); one whose class may
not send it is NOT_PERMITTED; one of no request kind is BAD_REQUEST. Nothing but the transmit queue changes. -/
def Obligations.FrameThatIsNotServed : Prop :=
  (∀ (c : Instr) (f : Frame) (s : State), frameOf c = some f →
    s.work.restarting = true ∨ (s.work.line (lineOf f.env.desk)).enabled = false → exec c s = .next s) ∧
  (∀ (c : Instr) (f : Frame) (s : State), frameOf c = some f → f.req ≠ .cancel → Heard s f.env.desk →
    (s.work.desk f.env.desk).presence = .present → (s.work.desk f.env.desk).outstanding ≠ none →
    exec c s = .next (s.withReply f.env.desk ⟨kindOf f.req, f.env.tag, .busy,
      if kindOf f.req = some .list then .list true [] else .none⟩)) ∧
  (∀ (c : Instr) (f : Frame) (k : ReqKind) (s : State), frameOf c = some f → kindOf f.req = some k →
    Heard s f.env.desk → (s.work.desk f.env.desk).presence = .present → (s.work.desk f.env.desk).outstanding = none →
    (k = .kill ∧ s.cfg.cls f.env.desk = .reporter) ∨
      (k = .breakIt ∧ (s.cfg.cls f.env.desk = .reporter ∨ s.cfg.cls f.env.desk = .copy)) ∨
      (k ∈ [.format, .remount, .set, .query, .rule, .edition, .clock, .lineStatus, .restart] ∧
        s.cfg.cls f.env.desk ≠ .supervisor) →
    exec c s = .next (s.withReply f.env.desk (refusal k f.env .notPermitted))) ∧
  ∀ (env : Envelope) (code : Nat) (s : State), Heard s env.desk → (s.work.desk env.desk).presence = .present →
    (s.work.desk env.desk).outstanding = none →
    exec (.unknownKindFrame env code) s = .next (s.withReply env.desk ⟨none, env.tag, .badRequest, .none⟩)

/-! ### Requests that read -/

/-- R179, R177, R83, R91: STATUS, QUERY, and RULE and EDITION with an index alone, reply with what is held, and change nothing
but the transmit queue. A STATUS of a drive outside 0 to 3 is BAD_REQUEST and one of a disabled drive NO_DRIVE; a QUERY of an item
outside 1 to 14, or with a qualifier that names no line, generator, drive or desk, and a RULE or EDITION with an index past the
table are BAD_REQUEST. -/
def Obligations.ReadingRequestsReply : Prop :=
  (∀ (env : Envelope) (d : DriveId) (s : State), Served s env.desk .status → (s.work.drive d).enabled = true →
    exec (.status env d.val) s = .next (s.withReply env.desk (okReply .status env (.status
      { vol := (s.work.drive d).vol,
        label := (s.work.drive d).media.map fun m => (m.label.name, m.label.serial, m.label.sides),
        counts := (s.work.drive d).media.map Media.counts,
        slotsUsed := (s.work.drive d).media.map Media.slotsUsed,
        checkOuts := s.work.checkOuts d,
        badListFull := (s.work.drive d).media.any (·.badListFull),
        mech := (s.work.drive d).mech, clock := s.cfg.clock, cause := s.work.lastRestart })))) ∧
  (∀ (env : Envelope) (item q v : Nat) (s : State), Served s env.desk .query →
    itemValue s.cfg s.work item q = some v →
    exec (.query env item q) s = .next (s.withReply env.desk (okReply .query env (.setting item v)))) ∧
  (∀ (env : Envelope) (i : Fin 16) (s : State), Served s env.desk .rule →
    exec (.ruleRead env i.val) s = .next (s.withReply env.desk (okReply .rule env (.rule s.cfg.rules[i])))) ∧
  (∀ (env : Envelope) (i : Fin 6) (s : State), Served s env.desk .edition →
    exec (.editionRead env i.val) s = .next (s.withReply env.desk (okReply .edition env (.edition s.cfg.editions[i])))) ∧
  ∀ (env : Envelope) (n q : Nat) (s : State),
    let refused := fun (c : Instr) (k : ReqKind) (code : ResultCode) => Served s env.desk k →
      exec c s = .next (s.withReply env.desk (refusal k env code))
    (4 ≤ n → refused (.status env n) .status .badRequest) ∧
    (∀ d : DriveId, d.val = n → (s.work.drive d).enabled = false → refused (.status env n) .status .noDrive) ∧
    (n = 0 ∨ 14 < n ∨ (n ∈ [1, 2, 3, 4, 5, 8] ∧ 4 ≤ q) ∨ (n = 6 ∧ 2 ≤ q) ∨
        (n = 13 ∧ (64 ≤ q ∨ q % 16 = 0 ∨ 8 < q % 16)) → refused (.query env n q) .query .badRequest) ∧
    (16 ≤ n → refused (.ruleRead env n) .rule .badRequest) ∧ (6 ≤ n → refused (.editionRead env n) .edition .badRequest)

/-- R175: LINE_STATUS reports a line as it stands and clears its error counts; of a line outside 0 to 3 it is BAD_REQUEST. -/
def Obligations.LineStatusReportsAndClears : Prop :=
  (∀ (env : Envelope) (n : Nat) (s : State), Served s env.desk .lineStatus → 4 ≤ n →
    exec (.lineStatus env n) s = .next (s.withReply env.desk (refusal .lineStatus env .badRequest))) ∧
  ∀ (env : Envelope) (l : LineId) (s : State), Served s env.desk .lineStatus →
    let x := s.work.line l
    exec (.lineStatus env l.val) s =
      .next ({ s with work := s.work.updLine l fun y => { y with counts := ⟨0, 0, 0, 0, 0, 0, 0⟩ } }.withReply env.desk
        (okReply .lineStatus env (.lineStatus
          { enabled := x.enabled, format := x.format, generator := x.generator,
            baud := match x.generator with | .p => s.cfg.rateP | .q => s.cfg.rateQ,
            judgement := x.judgement, frames := x.tx.length, notices := x.tx.countP TxFrame.isNotice,
            side := if x.format = LineFormat.f9M then
                .multidrop x.poll.cycle (x.drops.map fun n =>
                  (n, (s.work.desk (deskOf l n)).presence, (s.work.desk (deskOf l n)).missCount))
              else .pointToPoint x.deskReady (s.work.desk (deskOf l 1)).presence,
            counts := x.counts })))

/-! ### Settings -/

/-- R176, R177, R178: a SET of an item of the part as a whole that may be changed at any time is replied OK with the old value
and changes that item alone, and so is one of a line that is disabled or of a generator that no enabled line uses; one of an
enabled line, of a generator that an enabled line uses, or that would take away the only SUPERVISOR, is IN_USE, one that names no
item or no value of it BAD_REQUEST, and one that gives the value held is replied OK with it; these three change nothing but the
transmit queue (of items other than DRIVE_ENABLE). A drop set whose high byte is not 0 is no value, the model's choice (log
57). -/
def Obligations.SetChangesItem : Prop :=
  (∀ (env : Envelope) (v : Nat) (s : State), Served s env.desk .set →
    let reply := fun item old => okReply .set env (.setting item old)
    (v ≤ 500 → exec (.set env 7 0 v) s =
      .next ({ s with cfg := { s.cfg with pollPause := v } }.withReply env.desk (reply 7 s.cfg.pollPause))) ∧
    (v ∈ [3, 6, 10, 15] → exec (.set env 9 0 v) s =
      .next ({ s with cfg := { s.cfg with stepRate := v } }.withReply env.desk (reply 9 s.cfg.stepRate))) ∧
    (2 ≤ v ∧ v ≤ 60 → exec (.set env 10 0 v) s =
      .next ({ s with cfg := { s.cfg with headUnload := v } }.withReply env.desk (reply 10 s.cfg.headUnload))) ∧
    (1 ≤ v ∧ v ≤ 8 → exec (.set env 11 0 v) s =
      .next ({ s with cfg := { s.cfg with retryLimit := v } }.withReply env.desk (reply 11 s.cfg.retryLimit))) ∧
    (v ≤ 1 → exec (.set env 12 0 v) s =
      .next ({ s with cfg := { s.cfg with writeVerify := v == 1 } }.withReply env.desk
        (reply 12 (if s.cfg.writeVerify then 1 else 0)))) ∧
    (2 ≤ v ∧ v ≤ 8 → exec (.set env 14 0 v) s =
      .next ({ s with cfg := { s.cfg with missThreshold := v } }.withReply env.desk (reply 14 s.cfg.missThreshold)))) ∧
  (∀ (env : Envelope) (l : LineId) (v : Nat) (s : State), Served s env.desk .set → (s.work.line l).enabled = false →
    let x := s.work.line l
    let sets := fun (item v old : Nat) (f : Line → Line) => exec (.set env item l.val v) s =
      .next ({ s with work := s.work.updLine l f }.withReply env.desk (okReply .set env (.setting item old)))
    (∀ f : LineFormat, sets 2 (formatCode f) (formatCode x.format) fun y => { y with format := f }) ∧
    (∀ g : Generator, sets 3 (generatorCode g) (generatorCode x.generator) fun y => { y with generator := g }) ∧
    (1 ≤ v → v ≤ 255 → v ≠ dropMask x.drops →
      sets 4 v (dropMask x.drops) fun y => { y with drops := (List.range' 1 8).filter fun n => v.testBit (n - 1) }) ∧
    (20 ≤ v → v ≤ 200 → sets 5 v x.answerWindow fun y => { y with answerWindow := v })) ∧
  (∀ (env : Envelope) (v : Nat) (s : State), Served s env.desk .set → v ∈ [12, 24, 48, 96, 192] →
    ((∀ l, (s.work.line l).enabled = true → (s.work.line l).generator ≠ .p) → v ≠ s.cfg.rateP / 100 →
      exec (.set env 6 0 v) s = .next ({ s with cfg := { s.cfg with rateP := v * 100 } }.withReply env.desk
        (okReply .set env (.setting 6 (s.cfg.rateP / 100))))) ∧
    ((∀ l, (s.work.line l).enabled = true → (s.work.line l).generator ≠ .q) → v ≠ s.cfg.rateQ / 100 →
      exec (.set env 6 1 v) s = .next ({ s with cfg := { s.cfg with rateQ := v * 100 } }.withReply env.desk
        (okReply .set env (.setting 6 (s.cfg.rateQ / 100)))))) ∧
  ∀ (env : Envelope) (item q v : Nat) (s : State), Served s env.desk .set → item ≠ 8 →
    let inUse := (item ∈ [2, 3, 4, 5] ∧ ∃ l : LineId, l.val = q ∧ (s.work.line l).enabled = true) ∨
      (item = 6 ∧ ∃ l, (s.work.line l).enabled = true ∧ generatorCode (s.work.line l).generator = q) ∨
      (item = 13 ∧ v ≠ 3 ∧ ∃ k, q = (lineOf k).val * 16 + dropOf k ∧ s.cfg.cls k = .supervisor ∧
        ∀ j, s.cfg.cls j = .supervisor → j = k)
    (∀ old, itemValue s.cfg s.work item q = some old → itemValueOk item v = true → v ≠ old → inUse →
      exec (.set env item q v) s = .next (s.withReply env.desk (refusal .set env .inUse))) ∧
    (itemValue s.cfg s.work item q = none ∨ itemValueOk item v = false →
      exec (.set env item q v) s = .next (s.withReply env.desk (refusal .set env .badRequest))) ∧
    (itemValue s.cfg s.work item q = some v → itemValueOk item v = true →
      exec (.set env item q v) s = .next (s.withReply env.desk (okReply .set env (.setting item v))))

/-- R81, R177: SET_CLASS gives the desk named its new class and replies with the old one, unless it would take away the only
SUPERVISOR. One that names no desk, or no class, is BAD_REQUEST. -/
def Obligations.SetClassKeepsASupervisor : Prop :=
  (∀ (env : Envelope) (l : LineId) (drop : Nat) (c : Cls) (s : State), Served s env.desk .set → 1 ≤ drop → drop ≤ 8 →
    let k := deskOf l drop
    (c ≠ .supervisor ∧ s.cfg.cls k = .supervisor ∧ (∀ j, s.cfg.cls j = .supervisor → j = k) →
      exec (.setClass env l.val drop (clsCode c)) s = .next (s.withReply env.desk (refusal .set env .inUse))) ∧
    (c = .supervisor ∨ s.cfg.cls k ≠ .supervisor ∨ (∃ j, s.cfg.cls j = .supervisor ∧ j ≠ k) →
      exec (.setClass env l.val drop (clsCode c)) s =
        .next ({ s with cfg := { s.cfg with classes := s.cfg.classes.set k c } }.withReply env.desk
          (okReply .set env (.setting 13 (clsCode (s.cfg.cls k))))))) ∧
  ∀ (env : Envelope) (line drop cls : Nat) (s : State), Served s env.desk .set →
    4 ≤ line ∨ drop = 0 ∨ 8 < drop ∨ 3 < cls →
    exec (.setClass env line drop cls) s = .next (s.withReply env.desk (refusal .set env .badRequest))

/-- R173, R174, R178: SET LINE_ENABLE to no, from a desk of another line, loses what the line sends and receives, makes its
desks UNKNOWN and ends their streams, and keeps classes, handles, notices and error counts; to yes, with no notice waiting,
it starts the line as its format asks. One that gives the value held is replied OK and changes nothing, and one of a line outside
0 to 3, or of a value that is no flag, is BAD_REQUEST. That the poll sequencer of a disabled line stands READY with its timer
stopped is the model's choice (log 30). -/
def Obligations.LineEnableAndDisable : Prop :=
  (∀ (env : Envelope) (l : LineId) (s : State), Served s env.desk .set → lineOf env.desk ≠ l →
    (s.work.line l).enabled = true →
    ∃ t, exec (.setLineEnable env l.val 0) s = .next t ∧ t.cfg = s.cfg ∧
      (t.work.line l).enabled = false ∧ (t.work.line l).judgement = .disabled ∧ (t.work.line l).tx = [] ∧
      (t.work.line l).rx = .hunting ∧ (t.work.line l).rxChars = [] ∧ (t.work.line l).rxFrame = none ∧
      (t.work.line l).poll.state = .ready ∧ (t.work.line l).poll.timer = none ∧ (t.work.line l).negation = none ∧
      (t.work.line l).counts = (s.work.line l).counts ∧ (t.work.line l).format = (s.work.line l).format ∧
      (t.work.line l).generator = (s.work.line l).generator ∧ (t.work.line l).drops = (s.work.line l).drops ∧
      (t.work.line l).answerWindow = (s.work.line l).answerWindow ∧
      (∀ k, lineOf k = l → (t.work.desk k).presence = .unknown ∧ (t.work.desk k).missCount = 0 ∧
        (t.work.desk k).notices = (s.work.desk k).notices ∧
        (t.work.desk k).noticesDropped = (s.work.desk k).noticesDropped ∧
        (t.work.desk k).outstanding = (s.work.desk k).outstanding.filter fun o => o.stream.isNone) ∧
      (∀ k, lineOf k ≠ l → t.work.desk k = s.work.desk k) ∧
      (∀ j, j ≠ l → t.work.line j = (s.work.withReply env.desk (okReply .set env (.setting 1 1))).line j) ∧
      t.work.handles = s.work.handles ∧ t.work.queue = s.work.queue ∧ t.work.drives = s.work.drives ∧
      t.work.buffers = s.work.buffers ∧ t.work.retired = s.work.retired) ∧
  (∀ (env : Envelope) (n v : Nat) (s : State), Served s env.desk .set →
    (4 ≤ n ∨ 1 < v → exec (.setLineEnable env n v) s = .next (s.withReply env.desk (refusal .set env .badRequest))) ∧
    ∀ l : LineId, l.val = n → v = (if (s.work.line l).enabled then 1 else 0) →
      exec (.setLineEnable env n v) s = .next (s.withReply env.desk (okReply .set env (.setting 1 v)))) ∧
  ∀ (env : Envelope) (l : LineId) (s : State), Served s env.desk .set → (s.work.line l).enabled = false →
    (∀ k, lineOf k = l → (s.work.desk k).notices = []) →
    ∃ t, exec (.setLineEnable env l.val 1) s = .next t ∧ t.cfg = s.cfg ∧
      (t.work.line l).enabled = true ∧ (t.work.line l).judgement = .unjudged ∧ (t.work.line l).tx = [] ∧
      (t.work.line l).rx = .hunting ∧ (t.work.line l).poll = ⟨.ready, (s.work.line l).drops.headD 1, 0, none⟩ ∧
      (t.work.line l).counts = (s.work.line l).counts ∧ (t.work.line l).format = (s.work.line l).format ∧
      (t.work.line l).negation =
        (if (s.work.line l).format ≠ .f9M ∧ (s.work.line l).deskReady = false then some 1000 else none) ∧
      (∀ k, (t.work.desk k).presence =
        if k = deskOf l 1 ∧ (s.work.line l).format ≠ .f9M ∧ (s.work.line l).deskReady = true then .present
        else (s.work.desk k).presence) ∧
      (∀ k, (t.work.desk k).notices = (s.work.desk k).notices ∧
        (t.work.desk k).outstanding = (s.work.desk k).outstanding) ∧
      (∀ j, j ≠ l → t.work.line j = (s.work.withReply env.desk (okReply .set env (.setting 1 0))).line j) ∧
      t.work.handles = s.work.handles ∧ t.work.queue = s.work.queue ∧ t.work.drives = s.work.drives ∧
      t.work.buffers = s.work.buffers

/-- R178, R6, R12, R141: SET DRIVE_ENABLE to yes makes the part watch the drive again, with the debounce started where its
ready line is high; to no, where no handle names the drive and no request of it is queued, it leaves the drive NOT_READY with
an ABSENT volume, and otherwise it is IN_USE. R134: a request of another drive whose eviction flush stood on this one obtains
a buffer afresh; every other entry of the queue stays. One that gives the value held is replied OK, and one of a drive
outside 0 to 3, or of a value that is no flag, is BAD_REQUEST. What comes at once follows. -/
def Obligations.DriveEnableAndDisable : Prop :=
  (∀ (env : Envelope) (d : DriveId) (s : State), Served s env.desk .set → (s.work.drive d).enabled = false →
    let enabled := s.work.updDrive d fun dr =>
      { dr with enabled := true, debounce := if dr.readyLine then some 500 else none }
    exec (.setDriveEnable env d.val 1) s = .next
      { s with work := settle s.cfg (enabled.withReply env.desk (okReply .set env (.setting 8 0))) }) ∧
  (∀ (env : Envelope) (n v : Nat) (s : State), Served s env.desk .set →
    let replied := fun r => exec (.setDriveEnable env n v) s = .next { s with work := settle s.cfg (s.work.withReply env.desk r) }
    (4 ≤ n ∨ 1 < v → replied (refusal .set env .badRequest)) ∧
    ∀ d : DriveId, d.val = n → v = (if (s.work.drive d).enabled then 1 else 0) →
      replied (okReply .set env (.setting 8 v))) ∧
  ∀ (env : Envelope) (d : DriveId) (s : State), Served s env.desk .set → (s.work.drive d).enabled = true →
    ((∀ h, ¬ (s.work.handle h).any (·.drive == d)) → (∀ q, ¬ (s.work.entry q).any (·.drive == d)) →
      ∃ w, exec (.setDriveEnable env d.val 0) s = .next { s with work := settle s.cfg w } ∧
        (w.drive d).enabled = false ∧ (w.drive d).takenLevel = false ∧ (w.drive d).debounce = none ∧
        (w.drive d).mech = .notReady ∧ (w.drive d).vol = .absent ∧ (w.drive d).media = none ∧
        (w.drive d).mount = none ∧ (w.drive d).ops = [] ∧ (w.drive d).appendWait = [] ∧
        (∀ b, ¬ (w.buffer b).key.any (·.drive == d)) ∧ w.handles = s.work.handles ∧
        (∀ q, s.work.entry q = none → w.entry q = none) ∧
        (∀ q e, s.work.entry q = some e →
          let evicts := fun a : Active => e.active = some a ∧ a.place = .evicting ∧
            ∃ op ∈ (s.work.drive d).queued, op.origin = .request q
          ((∀ a, ¬ evicts a) → w.entry q = some e) ∧
          ∀ a, evicts a → w.entry q = some { e with active := some { a with place := .evicted } }) ∧
        ∀ l, w.line l = (s.work.withReply env.desk (okReply .set env (.setting 8 1))).line l) ∧
    ((∃ h, (s.work.handle h).any (·.drive == d) = true) ∨ (∃ q, (s.work.entry q).any (·.drive == d) = true) →
      exec (.setDriveEnable env d.val 0) s =
        .next { s with work := settle s.cfg (s.work.withReply env.desk (refusal .set env .inUse)) })

/-- R83, R118: a writing RULE replaces the entry's six fields together and replies with the entry, or is BAD_REQUEST where the
index or a field is out of range; from a desk that is not PRESENT the effect stands and the reply is discarded. -/
def Obligations.RuleWritesOneEntry : Prop :=
  (∀ (env : Envelope) (index enabled low high compare classes : Nat) (g : Grant) (s : State), Served s env.desk .rule →
    let f : RuleFields := ⟨enabled, low, high, compare, classes, grantCode g⟩
    (∀ i : Fin 16, i.val = index → enabled ≤ 1 → compare ≤ 1 → classes < 16 → low ≤ high → high ≤ 63 →
      let r : AccessRule := ⟨enabled == 1, low, high, compare == 1,
        ⟨classes.testBit 0, classes.testBit 1, classes.testBit 2, classes.testBit 3⟩, g⟩
      exec (.ruleWrite env index f) s =
        .next ({ s with cfg := { s.cfg with rules := s.cfg.rules.set i r } }.withReply env.desk
          (okReply .rule env (.rule r)))) ∧
    (16 ≤ index ∨ 1 < enabled ∨ 1 < compare ∨ 16 ≤ classes ∨ 63 < low ∨ 63 < high ∨ high < low →
      exec (.ruleWrite env index f) s = .next (s.withReply env.desk (refusal .rule env .badRequest)))) ∧
  (∀ (env : Envelope) (index : Nat) (f : RuleFields) (s : State), Served s env.desk .rule → 3 < f.grant →
    exec (.ruleWrite env index f) s = .next (s.withReply env.desk (refusal .rule env .badRequest))) ∧
  ∀ (env : Envelope) (i : Fin 16) (f : RuleFields) (r : AccessRule) (s : State), Heard s env.desk →
    (s.work.desk env.desk).presence ≠ .present → (s.work.desk env.desk).outstanding = none →
    s.cfg.cls env.desk = .supervisor → RuleFields.entry? f = some r →
    exec (.ruleWrite env i.val f) s = .next { s with cfg := { s.cfg with rules := s.cfg.rules.set i r } }

/-- R84, R85: the grant of a desk for a basket is that of the first entry that is enabled, holds the basket in its range
and either compares no class or covers the desk's; without such an entry it is READ_WRITE. -/
def Obligations.FirstMatchingRuleGrants : Prop :=
  ∀ (cfg : Cfg) (c : Cls) (basket : Nat),
    let hit := fun i : Fin 16 => (cfg.rules[i]).enabled = true ∧ (cfg.rules[i]).low ≤ basket ∧
      basket ≤ (cfg.rules[i]).high ∧ ((cfg.rules[i]).compare = false ∨ (cfg.rules[i]).classes.has c = true)
    (∀ i, hit i → (∀ j, j < i → ¬ hit j) → grantFor cfg c basket = (cfg.rules[i]).grant) ∧
      ((∀ i, ¬ hit i) → grantFor cfg c basket = .readWrite)

/-! ### The edition clock -/

/-- R93: the derived state of an entry, by its enabled field, the clock and the minutes forward between its times; and the
minute expiry, CLOCK, a writing EDITION and RESTART leave the entries they concern in it. -/
def Obligations.EditionStateFollowsClock : Prop :=
  (∀ (e : Edition) (m : Nat),
    let span := (e.reopen + 1440 - e.close) % 1440
    let since := (m + 1440 - e.close) % 1440
    let left := (e.close + 1440 - m) % 1440
    (e.enabled = false → e.derived (.running m) = .disabled ∧ e.derived .unset = .disabled) ∧
      (e.enabled = true → e.derived .unset = .scheduled) ∧
      (e.enabled = true → since < span → e.derived (.running m) = .closed) ∧
      (e.enabled = true → span ≤ since → 0 < e.lead → 1 ≤ left → left ≤ e.lead → e.derived (.running m) = .warning) ∧
      (e.enabled = true → span ≤ since → e.lead = 0 ∨ left = 0 ∨ e.lead < left → e.derived (.running m) = .scheduled)) ∧
  ∀ (env : Envelope) (i : Fin 6) (s t : State),
    let follows := (t.cfg.editions[i]).state = Edition.derived t.cfg.editions[i] t.cfg.clock
    (∀ m, s.cfg.clock = .running m → exec .minuteExpiry s = .next t → follows) ∧
    (∀ m, Served s env.desk .clock → m ≤ 1439 → exec (.clock env m) s = .next t → follows) ∧
    (∀ f, Served s env.desk .edition → EditionFields.inRange f = true → exec (.editionWrite env i.val f) s = .next t →
      follows) ∧
    (s.work.restarting = true → s.work.writesDone = true → exec .restartClearing s = .next t → follows)

/-- R95, R100 step 1: CLOCK sets the minute, restarts the interval, brings every entry to its derived state and replies
with the clock as it stood. -/
def Obligations.ClockSetsTheMinute : Prop :=
  ∀ (env : Envelope) (m : Nat) (s : State), Served s env.desk .clock →
    (m ≤ 1439 → ∃ t, exec (.clock env m) s = .next t ∧ t.cfg.clock = .running m ∧ t.cfg.minuteInterval = some 60 ∧
      (∀ i : Fin 6, t.cfg.editions[i] = (s.cfg.editions[i]).bring (.running m) ∧
        (t.cfg.editions[i]).state = (s.cfg.editions[i]).derived (.running m)) ∧
      t.cfg.classes = s.cfg.classes ∧ t.cfg.rules = s.cfg.rules ∧ t.work.drives = s.work.drives ∧
      t.work.buffers = s.work.buffers ∧ t.work.queue = s.work.queue ∧ t.work.retired = s.work.retired ∧
      ∀ l, t.work.line l = (s.work.withReply env.desk (okReply .clock env (.clock m s.cfg.clock))).line l) ∧
    (1439 < m → exec (.clock env m) s = .next (s.withReply env.desk (refusal .clock env .badRequest)))

/-- R92, R94, R97: a minute expiry of a RUNNING clock moves the minute, wraps at midnight, starts a new interval and
brings every entry to its derived state, with its pending list where it leaves WARNING or CLOSED for SCHEDULED. -/
def Obligations.MinuteExpiryMovesTheClock : Prop :=
  ∀ (m : Nat) (s : State), s.cfg.clock = .running m →
    ∃ t, exec .minuteExpiry s = .next t ∧ t.cfg.clock = .running (if m = 1439 then 0 else (m + 1) % 1440) ∧
      t.cfg.minuteInterval = some 60 ∧
      (∀ i : Fin 6, (t.cfg.editions[i]).state = (s.cfg.editions[i]).derived t.cfg.clock ∧
        ∀ bs, (s.cfg.editions[i]).pendingBaskets = some bs →
          ((s.cfg.editions[i]).state = .warning ∨ (s.cfg.editions[i]).state = .closed) →
          if (t.cfg.editions[i]).state = .scheduled ∨ (t.cfg.editions[i]).state = .disabled then
            (t.cfg.editions[i]).baskets = bs ∧ (t.cfg.editions[i]).pendingBaskets = none
          else (t.cfg.editions[i]).baskets = (s.cfg.editions[i]).baskets ∧
            (t.cfg.editions[i]).pendingBaskets = some bs) ∧
      t.work.lines = s.work.lines ∧ t.work.drives = s.work.drives ∧ t.work.buffers = s.work.buffers ∧
      t.work.queue = s.work.queue ∧ t.work.retired = s.work.retired

/-- R100 to R103, R89: at a minute expiry, a CLOCK or a writing EDITION, the OPEN check-out of a desk that is not SLOT, whose
slot's basket is listed by an entry that enters CLOSED, is FROZEN and otherwise unchanged, and a SLOT desk's is not touched; when
an entry leaves CLOSED, a FROZEN check-out whose basket is no longer closed is OPEN, and one whose basket is still closed stays
FROZEN. The desk of the handle, where it has no other, is told CLOSED with the name of the lowest such entry, REOPENED, or, of an
OPEN check-out whose basket one entry that enters WARNING lists and none that enters CLOSED, WARNING with its name and the
minutes to its close. -/
def Obligations.EditionChangeFreezesAndThaws : Prop :=
  ∀ (c : Instr) (h : HandleIx) (hd : Handle) (basket : Nat) (s t : State),
    c = .minuteExpiry ∨ (∃ env m, c = .clock env m) ∨ (∃ env i f, c = .editionWrite env i f) → exec c s = .next t →
    s.work.handle h = some hd → (s.work.slotOf hd).basket? = some basket →
    let lists := fun i : Fin 6 => basket ∈ (t.cfg.editions[i]).baskets
    let enters := fun (st : EditionState) (i : Fin 6) =>
      (s.cfg.editions[i]).state ≠ st ∧ (t.cfg.editions[i]).state = st ∧ lists i
    let leaves := ∃ i : Fin 6, (s.cfg.editions[i]).state = .closed ∧ (t.cfg.editions[i]).state ≠ .closed
    let shut := ∃ i : Fin 6, (t.cfg.editions[i]).state = .closed ∧ lists i
    let told := fun n : Notice => (∀ j x, j ≠ h → s.work.handle j = some x → x.desk ≠ hd.desk) →
      (t.work.desk hd.desk).notices = ((s.work.desk hd.desk).addNotice n).notices
    (hd.mode = .edit → hd.state = .live → (∃ i, enters .closed i) →
      (s.cfg.cls hd.desk ≠ .slot → t.work.handle h = some { hd with state := .frozen } ∧
        ∀ i, enters .closed i → (∀ j, j < i → ¬ enters .closed j) → told (.closed (t.cfg.editions[i]).name h)) ∧
      (s.cfg.cls hd.desk = .slot → t.work.handle h = some hd)) ∧
    (hd.state = .frozen → leaves →
      (¬ shut → t.work.handle h = some { hd with state := .live } ∧
        ((∀ i, ¬ enters .warning i) → told (.reopened h))) ∧
      (shut → t.work.handle h = some hd)) ∧
    ∀ i m, hd.mode = .edit → hd.state = .live → (∀ j, ¬ enters .closed j) → enters .warning i →
      (∀ j, enters .warning j → j = i) → t.cfg.clock = .running m →
      t.work.handle h = some hd ∧
        told (.warning (t.cfg.editions[i]).name (((t.cfg.editions[i]).close + 1440 - m) % 1440) h)

/-- R91, R96, R97: a writing EDITION of an entry that is DISABLED or SCHEDULED replaces its fields and its basket list and
brings it to its derived state; one of an entry that is WARNING or CLOSED keeps the list, and the list given waits. The
other entries are not touched. One with an index past 5, a field out of range, a basket list that is empty, longer than 12 or
holds a basket twice, a close minute equal to the reopen minute, or a lead not less than the open span is BAD_REQUEST. -/
def Obligations.EditionWritesOneEntry : Prop :=
  (∀ (env : Envelope) (n : Nat) (f : EditionFields) (s : State), Served s env.desk .edition →
    6 ≤ n ∨ nameOk f.name = false ∨ 1 < f.enabled ∨ 1439 < f.close ∨ 1439 < f.reopen ∨ 60 < f.lead ∨ f.baskets = [] ∨
      12 < f.baskets.length ∨ (∃ b ∈ f.baskets, 63 < b) ∨ ¬ f.baskets.Nodup ∨ f.close = f.reopen ∨
      (f.close ≤ 1439 ∧ f.reopen ≤ 1439 ∧ (f.close + 1440 - f.reopen) % 1440 ≤ f.lead) →
    exec (.editionWrite env n f) s = .next (s.withReply env.desk (refusal .edition env .badRequest))) ∧
  ∀ (env : Envelope) (i : Fin 6) (f : EditionFields) (s : State), Served s env.desk .edition →
    EditionFields.inRange f = true →
    ∃ t, exec (.editionWrite env i.val f) s = .next t ∧ t.cfg.clock = s.cfg.clock ∧ t.cfg.rules = s.cfg.rules ∧
      t.cfg.classes = s.cfg.classes ∧ (∀ j, j ≠ i → t.cfg.editions[j] = s.cfg.editions[j]) ∧
      (t.cfg.editions[i]).name = f.name ∧ (t.cfg.editions[i]).enabled = (f.enabled == 1) ∧
      (t.cfg.editions[i]).close = f.close ∧ (t.cfg.editions[i]).reopen = f.reopen ∧
      (t.cfg.editions[i]).lead = f.lead ∧
      (t.cfg.editions[i]).state = Edition.derived t.cfg.editions[i] t.cfg.clock ∧
      ((s.cfg.editions[i]).state = .disabled ∨ (s.cfg.editions[i]).state = .scheduled →
        (t.cfg.editions[i]).baskets = f.baskets) ∧
      ((s.cfg.editions[i]).state = .warning ∨ (s.cfg.editions[i]).state = .closed →
        (t.cfg.editions[i]).state = .warning ∨ (t.cfg.editions[i]).state = .closed →
        (t.cfg.editions[i]).baskets = (s.cfg.editions[i]).baskets ∧
          (t.cfg.editions[i]).pendingBaskets =
            if f.baskets = (s.cfg.editions[i]).baskets then none else some f.baskets) ∧
      ((s.cfg.editions[i]).state = .warning ∨ (s.cfg.editions[i]).state = .closed →
        (t.cfg.editions[i]).state = .scheduled ∨ (t.cfg.editions[i]).state = .disabled →
        (t.cfg.editions[i]).baskets = f.baskets ∧ (t.cfg.editions[i]).pendingBaskets = none) ∧
      t.work.drives = s.work.drives ∧ t.work.buffers = s.work.buffers ∧ t.work.queue = s.work.queue ∧
      ∀ l, t.work.line l = (s.work.withReply env.desk (okReply .edition env (.edition t.cfg.editions[i]))).line l

/-! ### The catalogue and the handles -/

/-- R43: the scan of a LIST frame gives at most four entries, each that of a qualifying slot from the stream position on,
in rising order, and leaves out no qualifying slot below the position it goes on from. -/
def Obligations.ListScanIsComplete : Prop :=
  ∀ (entryOf : CatSlot → Option ListEntry) (start : Nat),
    let scan := collect entryOf (catSlots.drop start) 4
    scan.1.length ≤ 4 ∧
      scan.1 = (catSlots.filter fun i => decide (start ≤ i.val) && (scan.2.all fun next => decide (i < next))).filterMap
        entryOf ∧
      ∀ next, scan.2 = some next → scan.1.length = 4 ∧ start ≤ next.val

/-- R42 to R45, R107: an accepted LIST sends its first frame, a final one where the scan ended at slot 115, and otherwise one
that leaves the stream open at the first slot not examined; once no unfinished frame is queued, or waits for room in the queue
(log 11), the stream goes on from there, or ends by its mark, whether or not its drive still has a catalogue. A LIST that is
refused BAD_REQUEST, NO_DRIVE or NOT_MOUNTED is answered with a frame that is final and empty (log 13). That a drive number
outside 0 to 3 is BAD_REQUEST is the model's choice (log 12). -/
def Obligations.ListSendsItsFrames : Prop :=
  (∀ (env : Envelope) (d : DriveId) (f : BasketFilter) (start : Nat) (s : State), Served s env.desk .list →
    (∀ m, Mounted s d m → filterInRange f = true → start ≤ 115 →
      let scan := collect (s.work.listEntry s.cfg env.desk d f m) (catSlots.drop start) 4
      (scan.2 = none → exec (.list env d.val f start) s =
        .next (s.withReply env.desk (okReply .list env (.list true scan.1)))) ∧
      ∀ next, scan.2 = some next → exec (.list env d.val f start) s =
        .next ({ s with work := s.work.updDesk env.desk fun k =>
            { k with outstanding := some ⟨env.tag, some .list, some ⟨d, f, next.val, .none⟩⟩ } }.withReply env.desk
          (okReply .list env (.list false scan.1)))) ∧
    (filterInRange f = false ∨ 115 < start → exec (.list env d.val f start) s =
      .next (s.withReply env.desk ⟨some .list, env.tag, .badRequest, .list true []⟩))) ∧
  (∀ (env : Envelope) (n : Nat) (f : BasketFilter) (start : Nat) (s : State), Served s env.desk .list →
    let refused := fun code => exec (.list env n f start) s =
      .next (s.withReply env.desk ⟨some .list, env.tag, code, .list true []⟩)
    (4 ≤ n → refused .badRequest) ∧
      ∀ d : DriveId, d.val = n → filterInRange f = true → start ≤ 115 →
        ((s.work.drive d).enabled = false → refused .noDrive) ∧
        ((s.work.drive d).enabled = true → (s.work.drive d).vol.present = false → refused .notMounted)) ∧
  ∀ (desk : DeskNo) (tag : Nat) (st : Stream) (s : State), (s.work.desk desk).presence = .present →
    (s.work.desk desk).outstanding = some ⟨tag, some .list, some st⟩ →
    (∀ f ∈ (s.work.line (lineOf desk)).frames, TxFrame.unfinished desk f = false) →
    let ended := { s with work := s.work.updDesk desk fun k => { k with outstanding := none } }
    (st.mark = .cancelled → exec (.listNextFrame desk) s =
      .next (ended.withReply desk ⟨some .list, tag, .cancelled, .list true []⟩)) ∧
    (st.mark = .volumeGone → exec (.listNextFrame desk) s =
      .next (ended.withReply desk ⟨some .list, tag, .volumeGone, .list true []⟩)) ∧
    ∀ m, (s.work.drive st.drive).media = some m →
    let scan := collect (s.work.listEntry s.cfg desk st.drive st.filter m) (catSlots.drop st.pos) 4
    (st.mark = .none → scan.2 = none → exec (.listNextFrame desk) s =
      .next (ended.withReply desk ⟨some .list, tag, .ok, .list true scan.1⟩)) ∧
    ∀ next, st.mark = .none → scan.2 = some next → exec (.listNextFrame desk) s =
      .next ({ s with work := s.work.updDesk desk fun k =>
          { k with outstanding := some ⟨tag, some .list, some { st with pos := next.val }⟩ } }.withReply desk
        ⟨some .list, tag, .ok, .list false scan.1⟩)

/-- R50 to R53, R32: an accepted OPEN for READ enters a READ handle pinned to the version that the slot holds; one for EDIT
enters the story's check-out with that version as its base; an accepted CREATE reserves the lowest EMPTY slot and enters its
check-out. Each takes the lowest free number and changes nothing else but the transmit queue. -/
def Obligations.AcceptedOpenEntersAHandle : Prop :=
  (∀ (env : Envelope) (d : DriveId) (slug : Chars) (m : Media) (i : CatSlot) (st : Story) (k : Option DeskNo)
    (h : HandleIx) (s : State), Served s env.desk .openStory → Mounted s d m → slugOk slug = true →
    m.lookup slug = .filed i st k →
    (grantFor s.cfg (s.cfg.cls env.desk) st.basket = .read ∨
      grantFor s.cfg (s.cfg.cls env.desk) st.basket = .readWrite) →
    s.work.freeHandle env.desk = some h →
    exec (.openRead env d.val slug) s = .next ({ s with work := s.work.setHandle h (some
        { desk := env.desk, drive := d, slot := i, mode := .read, state := .live, pin := some ⟨st.version, .catalogue⟩,
          base := none, readPos := 0, staging := none }) }.withReply env.desk
      (okReply .openStory env (.opened h i st.basket st.version st.length)))) ∧
  (∀ (env : Envelope) (d : DriveId) (slug : Chars) (m : Media) (i : CatSlot) (st : Story) (h : HandleIx) (s : State),
    Served s env.desk .openStory → Mounted s d m → (s.work.drive d).vol = .mounted → slugOk slug = true →
    m.lookup slug = .filed i st none → grantFor s.cfg (s.cfg.cls env.desk) st.basket = .readWrite →
    basketClosed s.cfg st.basket = false ∨ s.cfg.cls env.desk = .slot → s.work.holderOf d i = none →
    s.work.freeHandle env.desk = some h →
    exec (.openEdit env d.val slug) s = .next ({ s with work := s.work.setHandle h (some
        { desk := env.desk, drive := d, slot := i, mode := .edit, state := .live, pin := none, base := some st.version,
          readPos := 0, staging := some ⟨0, [], false⟩ }) }.withReply env.desk
      (okReply .openStory env (.opened h i st.basket st.version st.length)))) ∧
  ∀ (env : Envelope) (d : DriveId) (slug : Chars) (basket : Nat) (m : Media) (i : CatSlot) (h : HandleIx) (s : State),
    Served s env.desk .create → Mounted s d m → (s.work.drive d).vol = .mounted → slugOk slug = true → basket ≤ 63 →
    (grantFor s.cfg (s.cfg.cls env.desk) basket = .readWrite ∨
      grantFor s.cfg (s.cfg.cls env.desk) basket = .deposit) →
    basketClosed s.cfg basket = false ∨ s.cfg.cls env.desk = .slot →
    (m.lookup slug = .none ∨ ∃ j, m.lookup slug = .damaged j) →
    m.catalogue[i] = .empty → (∀ j, j < i → m.catalogue[j] ≠ .empty) → s.work.freeHandle env.desk = some h →
    exec (.create env d.val slug basket) s =
      .next ({ s with work := (s.work.updDrive d fun dr =>
          { dr with media := some { m with catalogue := m.catalogue.set i (.reserved slug basket) } }).setHandle h (some
        { desk := env.desk, drive := d, slot := i, mode := .edit, state := .live, pin := none, base := none,
          readPos := 0, staging := some ⟨0, [], true⟩ }) }.withReply env.desk
      (okReply .create env (.created h i)))

/-- R50, R42, R46: the refusals of an OPEN for READ and for EDIT, each when it is the first that applies; nothing else changes.
R53, R32: those of a CREATE. R39, R109: those of a KILL. That a drive number outside 0 to 3 is BAD_REQUEST is the model's
choice (log 12). -/
def Obligations.OpenEditRefusals : Prop :=
  (∀ (env : Envelope) (d : DriveId) (slug : Chars) (m : Media) (i : CatSlot) (st : Story) (k : Option DeskNo)
    (s : State), Served s env.desk .openStory → Mounted s d m → slugOk slug = true →
    let refused := fun code => exec (.openEdit env d.val slug) s =
      .next (s.withReply env.desk (refusal .openStory env code))
    let locked := fun holder => exec (.openEdit env d.val slug) s =
      .next (s.withReply env.desk ⟨some .openStory, env.tag, .locked, .locked holder⟩)
    let may := grantFor s.cfg (s.cfg.cls env.desk) st.basket = .readWrite
    let shut := basketClosed s.cfg st.basket = true ∧ s.cfg.cls env.desk ≠ .slot
    (m.lookup slug = .none ∨ (∃ j b, m.lookup slug = .reserved j b) → refused .noStory) ∧
      ((∃ j, m.lookup slug = .damaged j) → refused .damaged) ∧
      (m.lookup slug = .filed i st k → ¬ may → refused .denied) ∧
      (m.lookup slug = .filed i st k → may → shut → refused .closed) ∧
      (m.lookup slug = .filed i st k → may → ¬ shut → (s.work.drive d).vol = .writeProtected →
        refused .writeProtected) ∧
      (m.lookup slug = .filed i st k → may → ¬ shut → (s.work.drive d).vol = .writeFaulted → refused .writeFaulted) ∧
      (∀ holder, m.lookup slug = .filed i st k → may → ¬ shut → (s.work.drive d).vol = .mounted →
        s.work.holderOf d i = some holder → locked holder) ∧
      (∀ killer, m.lookup slug = .filed i st (some killer) → may → ¬ shut → (s.work.drive d).vol = .mounted →
        s.work.holderOf d i = none → locked killer) ∧
      (m.lookup slug = .filed i st none → may → ¬ shut → (s.work.drive d).vol = .mounted → s.work.holderOf d i = none →
        s.work.freeHandle env.desk = none → refused .noHandle)) ∧
  (∀ (env : Envelope) (d : DriveId) (slug : Chars) (m : Media) (i : CatSlot) (st : Story) (k : Option DeskNo)
    (s : State), Served s env.desk .openStory → Mounted s d m → slugOk slug = true →
    let refused := fun code => exec (.openRead env d.val slug) s =
      .next (s.withReply env.desk (refusal .openStory env code))
    let may := grantFor s.cfg (s.cfg.cls env.desk) st.basket = .read ∨
      grantFor s.cfg (s.cfg.cls env.desk) st.basket = .readWrite
    (m.lookup slug = .none ∨ (∃ j b, m.lookup slug = .reserved j b) → refused .noStory) ∧
      ((∃ j, m.lookup slug = .damaged j) → refused .damaged) ∧
      (m.lookup slug = .filed i st k → ¬ may → refused .denied) ∧
      (m.lookup slug = .filed i st k → may → s.work.freeHandle env.desk = none → refused .noHandle)) ∧
  (∀ (env : Envelope) (n : Nat) (slug : Chars) (basket : Nat) (s : State),
    let refused := fun (c : Instr) (k : ReqKind) (code : ResultCode) => exec c s =
      .next (s.withReply env.desk (refusal k env code))
    let opens := fun code => Served s env.desk .openStory →
      refused (.openRead env n slug) .openStory code ∧ refused (.openEdit env n slug) .openStory code
    let creates := fun code => Served s env.desk .create → refused (.create env n slug basket) .create code
    let kills := fun code => Served s env.desk .kill → refused (.kill env n slug) .kill code
    (4 ≤ n ∨ slugOk slug = false → opens .badRequest ∧ creates .badRequest ∧ kills .badRequest) ∧
      (63 < basket → creates .badRequest) ∧
      ∀ d : DriveId, d.val = n → slugOk slug = true →
        ((s.work.drive d).enabled = false → opens .noDrive ∧ (basket ≤ 63 → creates .noDrive) ∧ kills .noDrive) ∧
        ((s.work.drive d).enabled = true → (s.work.drive d).vol.present = false →
          opens .notMounted ∧ (basket ≤ 63 → creates .notMounted) ∧
            ((s.work.drive d).vol ≠ .mounting → kills .notMounted))) ∧
  (∀ (env : Envelope) (d : DriveId) (slug : Chars) (basket : Nat) (m : Media) (s : State), Served s env.desk .create →
    Mounted s d m → slugOk slug = true → basket ≤ 63 →
    let refused := fun code => exec (.create env d.val slug basket) s =
      .next (s.withReply env.desk (refusal .create env code))
    let may := grantFor s.cfg (s.cfg.cls env.desk) basket = .readWrite ∨
      grantFor s.cfg (s.cfg.cls env.desk) basket = .deposit
    let shut := basketClosed s.cfg basket = true ∧ s.cfg.cls env.desk ≠ .slot
    let taken := (∃ i st k, m.lookup slug = .filed i st k) ∨ ∃ i b, m.lookup slug = .reserved i b
    (¬ may → refused .denied) ∧ (may → shut → refused .closed) ∧
      (may → ¬ shut → (s.work.drive d).vol = .writeProtected → refused .writeProtected) ∧
      (may → ¬ shut → (s.work.drive d).vol = .writeFaulted → refused .writeFaulted) ∧
      (may → ¬ shut → (s.work.drive d).vol = .mounted →
        (taken → refused .exists_) ∧
        (¬ taken → (∀ i : CatSlot, m.catalogue[i] ≠ .empty) → refused .catalogueFull) ∧
        (¬ taken → (∃ i : CatSlot, m.catalogue[i] = .empty) → s.work.freeHandle env.desk = none →
          refused .noHandle))) ∧
  ∀ (env : Envelope) (d : DriveId) (slug : Chars) (m : Media) (s : State), Served s env.desk .kill → Mounted s d m →
    slugOk slug = true →
    let refused := fun code => exec (.kill env d.val slug) s = .next (s.withReply env.desk (refusal .kill env code))
    let locked := fun body => exec (.kill env d.val slug) s =
      .next (s.withReply env.desk ⟨some .kill, env.tag, .locked, body⟩)
    (m.lookup slug = .none → refused .noStory) ∧ ((∃ j, m.lookup slug = .damaged j) → refused .damaged) ∧
      (∀ i b holder, m.lookup slug = .reserved i b → s.work.holderOf d i = some holder → locked (.locked holder)) ∧
      ∀ i st k, m.lookup slug = .filed i st k →
        let may := grantFor s.cfg (s.cfg.cls env.desk) st.basket = .readWrite
        let shut := basketClosed s.cfg st.basket = true ∧ s.cfg.cls env.desk ≠ .slot
        (¬ may → refused .denied) ∧ (may → shut → refused .closed) ∧
          (may → ¬ shut → (s.work.drive d).vol = .writeProtected → refused .writeProtected) ∧
          (may → ¬ shut → (s.work.drive d).vol = .writeFaulted → refused .writeFaulted) ∧
          ∀ holder, may → ¬ shut → (s.work.drive d).vol = .mounted → s.work.holderOf d i = some holder →
            locked (.locked holder)

/-- R31: the slug lookup answers the FILED slot that holds the slug, else the RESERVED slot, else the lowest DAMAGED slot
that remembers it, else no slot, in a catalogue in which at most one FILED or RESERVED slot holds it. -/
def Obligations.LookupOrder : Prop :=
  ∀ (m : Media) (slug : Chars) (i : CatSlot),
    (∀ a b : CatSlot, (∃ st k, m.catalogue[a] = .filed st k ∧ st.slug = slug) →
      (∃ st k, m.catalogue[b] = .filed st k ∧ st.slug = slug) → a = b) →
    (∀ a b : CatSlot, (∃ n, m.catalogue[a] = .reserved slug n) → (∃ n, m.catalogue[b] = .reserved slug n) → a = b) →
    let filed := fun j : CatSlot => ∃ st k, m.catalogue[j] = .filed st k ∧ st.slug = slug
    let reserved := fun j : CatSlot => ∃ n, m.catalogue[j] = .reserved slug n
    let damaged := fun j : CatSlot => ∃ x, m.catalogue[j] = .damaged (some slug) x
    (∀ st k, m.catalogue[i] = .filed st k → st.slug = slug → m.lookup slug = .filed i st k) ∧
      (∀ n, (∀ j, ¬ filed j) → m.catalogue[i] = .reserved slug n → m.lookup slug = .reserved i n) ∧
      ((∀ j, ¬ filed j) → (∀ j, ¬ reserved j) → damaged i → (∀ j, j < i → ¬ damaged j) → m.lookup slug = .damaged i) ∧
      ((∀ j, ¬ filed j) → (∀ j, ¬ reserved j) → (∀ j, ¬ damaged j) → m.lookup slug = .none)

/-! ### Requests that name a handle -/

/-- R49, R73: a FILE, CLOSE, DISCARD, READ or WRITE is BAD_REQUEST for a handle number outside 1 to 48 and BAD_HANDLE for one not
in use or of another desk; and a DEFUNCT handle is answered once, with its cause to a FILE, DISCARD, READ or WRITE and with OK to
a CLOSE, and is freed by that answer. A READ or WRITE whose count, length or offset is out of range is BAD_REQUEST whatever the
handle. What comes at once after a DISCARD follows. -/
def Obligations.HandleIsChecked : Prop :=
  (∀ (env : Envelope) (n : Nat) (s : State),
    let bad := n = 0 ∨ 48 < n
    let foreign := ∃ h : HandleIx, h.val + 1 = n ∧ (s.work.handle h).all (·.desk != env.desk) = true
    let refused := fun c k code => exec c s = .next (s.withReply env.desk (refusal k env code))
    let discarded := fun code => exec (.discard env n) s =
      .next { s with work := settle s.cfg (s.work.withReply env.desk (refusal .discard env code)) }
    (Served s env.desk .file → (bad → refused (.file env n) .file .badRequest) ∧
      (foreign → refused (.file env n) .file .badHandle)) ∧
    (Served s env.desk .close → (bad → refused (.close env n) .close .badRequest) ∧
      (foreign → refused (.close env n) .close .badHandle)) ∧
    (Served s env.desk .discard → (bad → discarded .badRequest) ∧ (foreign → discarded .badHandle)) ∧
    (∀ count offset, Served s env.desk .read →
      (1 ≤ count → count ≤ formLimit env.form → (bad → refused (.read env n count offset) .read .badRequest) ∧
        (foreign → (∀ o ∈ offset, o ≤ 32768) → refused (.read env n count offset) .read .badHandle)) ∧
      (count = 0 ∨ formLimit env.form < count ∨ (∃ o ∈ offset, 32768 < o) →
        refused (.read env n count offset) .read .badRequest)) ∧
    ∀ offset data, Served s env.desk .write →
      (1 ≤ data.length → data.length ≤ formLimit env.form →
        (bad → refused (.write env n offset data) .write .badRequest) ∧
        (foreign → offset ≤ 32768 → refused (.write env n offset data) .write .badHandle)) ∧
      (data = [] ∨ formLimit env.form < data.length ∨ 32768 < offset →
        refused (.write env n offset data) .write .badRequest)) ∧
  ∀ (env : Envelope) (h : HandleIx) (hd : Handle) (c : Cause) (s : State), s.work.handle h = some hd →
    hd.desk = env.desk → hd.state = .defunct c →
    let freed := { s with work := s.work.setHandle h none }
    (Served s env.desk .close →
      exec (.close env (h.val + 1)) s = .next (freed.withReply env.desk (okReply .close env .none))) ∧
    let code : ResultCode := match c with | .broken => .broken | .lost => .lost | .superseded => .superseded
    (Served s env.desk .file → exec (.file env (h.val + 1)) s = .next (freed.withReply env.desk (refusal .file env code))) ∧
    (Served s env.desk .discard → exec (.discard env (h.val + 1)) s =
      .next { s with work := settle s.cfg (freed.work.withReply env.desk (refusal .discard env code)) }) ∧
    (∀ count offset, Served s env.desk .read → 1 ≤ count → count ≤ formLimit env.form → (∀ o ∈ offset, o ≤ 32768) →
      exec (.read env (h.val + 1) count offset) s = .next (freed.withReply env.desk (refusal .read env code))) ∧
    ∀ offset data, Served s env.desk .write → 1 ≤ data.length → data.length ≤ formLimit env.form → offset ≤ 32768 →
      exec (.write env (h.val + 1) offset data) s = .next (freed.withReply env.desk (refusal .write env code))

/-- R54, R55, R108, R126, R130: a READ at or past the version's length is answered with no bytes, and one whose needed sectors are
all VALID with their bytes; the read position moves, each buffer that gave bytes moves to the most recent end of the order of use
(R126), and no drive has any part in it. That two buffers move in byte order, so that the one of the later track-side ends most
recent, is the model's choice (log 62). -/
def Obligations.ReadAnsweredAtIntake : Prop :=
  (∀ (env : Envelope) (h : HandleIx) (hd : Handle) (count : Nat) (offset : Option Nat) (s : State),
    Served s env.desk .read → s.work.handle h = some hd → hd.desk = env.desk → (∀ c, hd.state ≠ .defunct c) →
    1 ≤ count → count ≤ formLimit env.form → (∀ o ∈ offset, o ≤ 32768) →
    (s.work.versionOf hd).1 ≤ offset.getD hd.readPos →
    exec (.read env (h.val + 1) count offset) s =
      .next ({ s with work := s.work.setHandle h (some { hd with readPos := offset.getD hd.readPos }) }.withReply env.desk
        (okReply .read env (.read (offset.getD hd.readPos) [])))) ∧
  ∀ (env : Envelope) (h : HandleIx) (hd : Handle) (count : Nat) (offset : Option Nat) (bytes : Chars) (s : State),
    Served s env.desk .read → s.work.handle h = some hd → hd.desk = env.desk → (∀ c, hd.state ≠ .defunct c) →
    1 ≤ count → count ≤ formLimit env.form → (∀ o ∈ offset, o ≤ 32768) →
    let from_ := offset.getD hd.readPos
    from_ < (s.work.versionOf hd).1 →
    let pieces := readPieces (s.work.versionOf hd).2 (s.work.versionOf hd).1 from_ count
    s.work.validPieces hd.drive pieces = some bytes →
    ∃ t, exec (.read env (h.val + 1) count offset) s = .next t ∧ t.cfg = s.cfg ∧
      t.work.handle h = some { hd with readPos := from_ + bytes.length } ∧
      (∀ i, i ≠ h → t.work.handle i = s.work.handle i) ∧ t.work.drives = s.work.drives ∧
      t.work.buffers = s.work.buffers ∧ t.work.queue = s.work.queue ∧ t.work.desks = s.work.desks ∧
      t.work.lru = pieces.foldl (fun order p => match s.work.bufferOf (keyOf hd.drive (s.work.sides hd.drive) p.block) with
        | some b => order.erase b ++ [b]
        | none => order) s.work.lru ∧
      t.work.lines = (s.work.withReply env.desk (okReply .read env (.read from_ bytes))).lines

/-- R109, R110, R57, R61, R39, R19, R23, R54: a queued request that passes its checks waits in the lowest free slot, with its
fields and a new arrival order, and nothing else changes; where the queue has no free slot it is refused QUEUE_FULL. Before that
a READ, WRITE or FILE is NO_DRIVE where its handle's drive is disabled and NOT_MOUNTED where the volume is neither present nor
MOUNTING, and a FORMAT or REMOUNT BAD_REQUEST for a field out of range and NO_DRIVE for a disabled drive (a KILL's refusals stand
with those of OPEN). A KILL for a volume that is MOUNTING waits without being checked further, and its entry says so. That a
FORMAT or REMOUNT of a drive number outside 0 to 3 is BAD_REQUEST is the model's choice (log 12). -/
def Obligations.QueuedRequestWaits : Prop :=
  (∀ (env : Envelope) (d : DriveId) (s : State),
    let mine := fun (h : HandleIx) (hd : Handle) => s.work.handle h = some hd ∧ hd.desk = env.desk ∧ hd.drive = d
    let writes := fun (h : HandleIx) (offset : Nat) (data : Chars) => ∃ hd st, mine h hd ∧ hd.mode = .edit ∧
      hd.state = .live ∧ hd.staging = some st ∧ offset = st.length ∧ 1 ≤ data.length ∧
      data.length ≤ formLimit env.form ∧ offset + data.length ≤ 32768
    let reads := fun (h : HandleIx) (count : Nat) (offset : Option Nat) => ∃ hd, mine h hd ∧
      (hd.state = .live ∨ hd.state = .frozen) ∧ 1 ≤ count ∧ count ≤ formLimit env.form ∧ (∀ o ∈ offset, o ≤ 32768) ∧
      offset.getD hd.readPos < (s.work.versionOf hd).1 ∧
      s.work.validPieces d (readPieces (s.work.versionOf hd).2 (s.work.versionOf hd).1
        (offset.getD hd.readPos) count) = none
    let refused := fun (c : Instr) (k : ReqKind) (code : ResultCode) => Served s env.desk k →
      exec c s = .next (s.withReply env.desk (refusal k env code))
    let handled := fun code => ∀ h,
      (∀ offset data, writes h offset data → refused (.write env (h.val + 1) offset data) .write code) ∧
      (∀ hd, mine h hd → hd.mode = .edit → hd.state = .live → refused (.file env (h.val + 1)) .file code) ∧
      ∀ count offset, reads h count offset → refused (.read env (h.val + 1) count offset) .read code
    let waits := (s.work.drive d).vol.present = true ∨ (s.work.drive d).vol = .mounting
    let labelled := fun name serial sides => nameOk name = true ∧ 1 ≤ serial ∧ serial ≤ 999999 ∧ (sides = 1 ∨ sides = 2)
    let full := ∀ p, s.work.entry p ≠ none
    ((s.work.drive d).enabled = false → handled .noDrive) ∧
    ((s.work.drive d).enabled = true → ¬ waits → handled .notMounted) ∧
    ((s.work.drive d).enabled = true → waits → full → handled .queueFull) ∧
    ((s.work.drive d).enabled = true → full → (∀ slug m i st k, slugOk slug = true →
      (s.work.drive d).media = some m → (s.work.drive d).vol = .mounted → m.lookup slug = .filed i st k →
      grantFor s.cfg (s.cfg.cls env.desk) st.basket = .readWrite →
      basketClosed s.cfg st.basket = false ∨ s.cfg.cls env.desk = .slot → s.work.holderOf d i = none →
      refused (.kill env d.val slug) .kill .queueFull) ∧
      (∀ slug, slugOk slug = true → (s.work.drive d).vol = .mounting → (s.work.drive d).media = none →
        refused (.kill env d.val slug) .kill .queueFull) ∧
      (∀ name serial sides, labelled name serial sides → refused (.format env d.val name serial sides) .format .queueFull) ∧
      refused (.remount env d.val) .remount .queueFull) ∧
    (∀ n name serial sides, 4 ≤ n ∨ ¬ labelled name serial sides →
      refused (.format env n name serial sides) .format .badRequest) ∧
    (∀ n, 4 ≤ n → refused (.remount env n) .remount .badRequest) ∧
    ((s.work.drive d).enabled = false →
      (∀ name serial sides, labelled name serial sides → refused (.format env d.val name serial sides) .format .noDrive) ∧
      refused (.remount env d.val) .remount .noDrive)) ∧
  ∀ (env : Envelope) (q : QSlot) (d : DriveId) (s : State), s.work.entry q = none →
    (∀ p, p < q → s.work.entry p ≠ none) → (s.work.drive d).enabled = true →
    let mine := fun (h : HandleIx) (hd : Handle) => s.work.handle h = some hd ∧ hd.desk = env.desk ∧ hd.drive = d ∧
      ((s.work.drive d).vol.present = true ∨ (s.work.drive d).vol = .mounting)
    (∀ h hd st offset data, mine h hd → hd.mode = .edit → hd.state = .live → hd.staging = some st →
      offset = st.length → 1 ≤ data.length → data.length ≤ formLimit env.form → offset + data.length ≤ 32768 →
      Served s env.desk .write → exec (.write env (h.val + 1) offset data) s =
        .next (s.withWaiting env q (.write h offset data) d)) ∧
    (∀ h hd, mine h hd → hd.mode = .edit → hd.state = .live → Served s env.desk .file →
      exec (.file env (h.val + 1)) s = .next (s.withWaiting env q (.file h) d)) ∧
    (∀ h hd count offset, mine h hd → hd.state = .live ∨ hd.state = .frozen → 1 ≤ count → count ≤ formLimit env.form →
      (∀ o ∈ offset, o ≤ 32768) → offset.getD hd.readPos < (s.work.versionOf hd).1 →
      s.work.validPieces d (readPieces (s.work.versionOf hd).2 (s.work.versionOf hd).1
        (offset.getD hd.readPos) count) = none →
      Served s env.desk .read → exec (.read env (h.val + 1) count offset) s =
        .next (s.withWaiting env q (.read h offset count) d)) ∧
    (∀ slug m i st k, Served s env.desk .kill → slugOk slug = true → (s.work.drive d).media = some m →
      (s.work.drive d).vol = .mounted → m.lookup slug = .filed i st k →
      grantFor s.cfg (s.cfg.cls env.desk) st.basket = .readWrite →
      basketClosed s.cfg st.basket = false ∨ s.cfg.cls env.desk = .slot → s.work.holderOf d i = none →
      exec (.kill env d.val slug) s = .next (s.withWaiting env q (.kill slug) d)) ∧
    (∀ slug, Served s env.desk .kill → slugOk slug = true → (s.work.drive d).vol = .mounting →
      (s.work.drive d).media = none → exec (.kill env d.val slug) s = .next (s.withWaiting env q (.kill slug) d) ∧
        ((s.withWaiting env q (.kill slug) d).work.entry q).map (·.throughMount) = some true) ∧
    (∀ name serial sides, Served s env.desk .format → nameOk name = true → 1 ≤ serial → serial ≤ 999999 →
      sides = 1 ∨ sides = 2 → exec (.format env d.val name serial sides) s =
        .next (s.withWaiting env q (.format name serial sides) d)) ∧
    (Served s env.desk .remount → exec (.remount env d.val) s = .next (s.withWaiting env q .remount d))

/-- R57, R61, R49: a WRITE or a FILE that its handle does not accept is refused with the first reason that applies, and
nothing else changes. -/
def Obligations.WriteAndFileRefusals : Prop :=
  ∀ (env : Envelope) (h : HandleIx) (hd : Handle) (offset : Nat) (data : Chars) (s : State),
    s.work.handle h = some hd → hd.desk = env.desk → (∀ c, hd.state ≠ .defunct c) → 1 ≤ data.length →
    data.length ≤ formLimit env.form → offset ≤ 32768 →
    let write := fun code => exec (.write env (h.val + 1) offset data) s =
      .next (s.withReply env.desk (refusal .write env code))
    let file := fun code => exec (.file env (h.val + 1)) s = .next (s.withReply env.desk (refusal .file env code))
    (Served s env.desk .write → (hd.mode = .read → write .wrongMode) ∧
      (hd.mode = .edit → hd.state = .frozen → write .frozen) ∧
      ∀ st, hd.mode = .edit → hd.state = .live → hd.staging = some st → (offset ≠ st.length → write .offset) ∧
        (offset = st.length → 32768 < offset + data.length → write .tooLong)) ∧
    (Served s env.desk .file → (hd.mode = .read → file .wrongMode) ∧
      (hd.mode = .edit → hd.state = .frozen → file .frozen))

/-- R69, R33, R68, R135, R26, R70, R76: a DISCARD of an OPEN or FROZEN check-out frees the handle, and the slot of a new story
becomes EMPTY. With nothing staged nothing else changes but the transmit queue. With blocks staged, each becomes FREE, or BAD if
its sector awaits a relocation, which is recorded for the label while the list has room unless the volume is WRITE_FAULTED (in
the byte order of the staging list, the model's choice: log 46), and for which a label write is then queued (the model's choice:
log 24); the DIRTY sectors of the staged blocks become ABSENT, and every other block and sector keeps what it holds. A DISCARD of
an OPEN READ handle is WRONG_MODE. A CLOSE of an OPEN READ handle frees it and releases its pin, and a check-out is
WRONG_MODE. -/
def Obligations.DiscardAndCloseFreeTheHandle : Prop :=
  (∀ (env : Envelope) (h : HandleIx) (hd : Handle) (newStory : Bool) (s : State), Served s env.desk .discard →
    s.work.handle h = some hd → hd.desk = env.desk → hd.mode = .edit → hd.state = .live ∨ hd.state = .frozen →
    hd.staging = some ⟨0, [], newStory⟩ → (∀ b, (s.work.buffer b).reloc = none) →
    ∃ w, exec (.discard env (h.val + 1)) s = .next { s with work := settle s.cfg w } ∧ w.handle h = none ∧
      (∀ i, i ≠ h → w.handle i = s.work.handle i) ∧
      (∀ d, (w.drive d).media = (s.work.drive d).media.map fun m =>
        if d = hd.drive ∧ newStory = true then { m with catalogue := m.catalogue.set hd.slot .empty } else m) ∧
      w.buffers = s.work.buffers ∧ w.queue = s.work.queue ∧ w.desks = s.work.desks ∧
      w.lines = (s.work.withReply env.desk (okReply .discard env .none)).lines) ∧
  (∀ (env : Envelope) (h : HandleIx) (hd : Handle) (st : Staging) (m : Media) (s : State), Served s env.desk .discard →
    s.work.handle h = some hd → hd.desk = env.desk → hd.mode = .edit → hd.state = .live ∨ hd.state = .frozen →
    hd.staging = some st → (s.work.drive hd.drive).media = some m → cellsFrom 0 m.cells = true →
    (∀ b, (s.work.buffer b).reloc = none) → s.work.KeysDistinct →
    ∃ w, exec (.discard env (h.val + 1)) s = .next { s with work := settle s.cfg w } ∧ w.handle h = none ∧
      (∀ i, i ≠ h → w.handle i = s.work.handle i) ∧ s.work.StagingReleased w hd st m ∧
      (((∀ block ∈ blocksOf st.extents, ¬ s.work.FailingBlock hd.drive m.label.sides block) ∨
          (s.work.drive hd.drive).vol = .writeFaulted) →
        (w.drive hd.drive).queued = (s.work.drive hd.drive).queued) ∧
      (∀ c, c ≠ hd.drive → w.drive c = s.work.drive c) ∧ w.queue = s.work.queue ∧ w.desks = s.work.desks ∧
      w.lines = (s.work.withReply env.desk (okReply .discard env .none)).lines) ∧
  (∀ (env : Envelope) (h : HandleIx) (hd : Handle) (s : State), Served s env.desk .discard → s.work.handle h = some hd →
    hd.desk = env.desk → hd.mode = .read → hd.state = .live →
    exec (.discard env (h.val + 1)) s =
      .next { s with work := settle s.cfg (s.work.withReply env.desk (refusal .discard env .wrongMode)) }) ∧
  ∀ (env : Envelope) (h : HandleIx) (hd : Handle) (s : State), Served s env.desk .close → s.work.handle h = some hd →
    hd.desk = env.desk →
    (∀ v, hd.mode = .read → hd.state = .live → hd.pin = some ⟨v, .catalogue⟩ ∨ hd.pin = some ⟨v, .empty⟩ →
      exec (.close env (h.val + 1)) s =
        .next ({ s with work := s.work.setHandle h none }.withReply env.desk (okReply .close env .none))) ∧
    (∀ v r x, hd.mode = .read → hd.state = .live → hd.pin = some ⟨v, .record r⟩ → s.work.record r = some x →
      2 ≤ x.pins → exec (.close env (h.val + 1)) s =
        .next ({ s with work := (s.work.setRecord r (some { x with pins := x.pins - 1 })).setHandle h none }.withReply
          env.desk (okReply .close env .none))) ∧
    (∀ v r x, hd.mode = .read → hd.state = .live → hd.pin = some ⟨v, .record r⟩ → s.work.record r = some x →
      x.pins = 1 → exec (.close env (h.val + 1)) s =
        .next ({ s with work := ((s.work.setRecord r none).updMedia x.drive fun m =>
          m.mark (blocksOf x.extents) .free).setHandle h none }.withReply env.desk (okReply .close env .none))) ∧
    (hd.mode = .edit → hd.state = .live ∨ hd.state = .frozen →
      exec (.close env (h.val + 1)) s = .next (s.withReply env.desk (refusal .close env .wrongMode)))

/-- R71, R72, R68, R33: a BREAK of a check-out with nothing staged and no request of its holder makes it DEFUNCT with cause
BROKEN, tells the holder, and is replied OK with the former holder. With blocks staged, or of a new story, the staging is released
as by a DISCARD (logs 24, 46). A request of the holder that names the check-out, a WAITING one or an ACTIVE READ or WRITE, leaves
the queue and is replied BROKEN before the BREAK is replied, and keeps no operation, buffer or wait; through an ACTIVE FILE the
BREAK is IN_PROGRESS. Without a check-out it is NO_STORY; for a slug out of range BAD_REQUEST, of a disabled drive NO_DRIVE, and
of a volume that is not MOUNTED, PROTECTED or WRITE_FAULTED NOT_MOUNTED. That a drive number outside 0 to 3 is BAD_REQUEST is the
model's choice (log 12). What comes at once follows. -/
def Obligations.BreakTakesTheCheckOut : Prop :=
  (∀ (env : Envelope) (d : DriveId) (slug : Chars) (m : Media) (h : HandleIx) (hd : Handle) (s : State),
    Served s env.desk .breakIt → Mounted s d m → slugOk slug = true → (m.lookup slug).slot? = some hd.slot →
    s.work.checkOutOf d hd.slot = some h → s.work.handle h = some hd → hd.staging = some ⟨0, [], false⟩ →
    s.work.entryNaming h = none → (∀ b, (s.work.buffer b).reloc = none) →
    ∃ w, exec (.breakCheckOut env d.val slug) s = .next { s with work := settle s.cfg w } ∧
      w.handle h = some { hd with state := .defunct .broken, pin := none, staging := none } ∧
      (∀ i, i ≠ h → w.handle i = s.work.handle i) ∧
      (w.desk hd.desk).notices = ((s.work.desk hd.desk).addNotice (.broken h env.desk)).notices ∧
      (∀ k, k ≠ hd.desk → w.desk k = s.work.desk k) ∧ w.buffers = s.work.buffers ∧ w.queue = s.work.queue ∧
      w.lines = (s.work.withReply env.desk (okReply .breakIt env (.broken hd.desk))).lines) ∧
  (∀ (env : Envelope) (d : DriveId) (slug : Chars) (m : Media) (h : HandleIx) (hd : Handle) (st : Staging) (s : State),
    Served s env.desk .breakIt → Mounted s d m → slugOk slug = true → (m.lookup slug).slot? = some hd.slot →
    s.work.checkOutOf d hd.slot = some h → s.work.handle h = some hd → hd.staging = some st →
    cellsFrom 0 m.cells = true → (∀ b, (s.work.buffer b).reloc = none) → s.work.KeysDistinct →
    let taken := fun w : Work => exec (.breakCheckOut env d.val slug) s = .next { s with work := settle s.cfg w } ∧
      w.handle h = some { hd with state := .defunct .broken, pin := none, staging := none } ∧
      (∀ i, i ≠ h → w.handle i = s.work.handle i) ∧ s.work.StagingReleased w hd st m ∧
      (w.desk hd.desk).notices = ((s.work.desk hd.desk).addNotice (.broken h env.desk)).notices ∧
      ∀ k, k ≠ hd.desk → w.desk k = s.work.desk k
    let done := okReply .breakIt env (.broken hd.desk)
    (s.work.entryNaming h = none → ∃ w, taken w ∧ w.queue = s.work.queue ∧
      w.lines = (s.work.withReply env.desk done).lines) ∧
    ∀ q e, s.work.entryNaming h = some (q, e) → e.desk = hd.desk →
      (e.active = none ∨ (∀ x, e.job ≠ .file x) → (s.work.desk hd.desk).presence = .present →
        (∀ b, ∀ k ∈ (s.work.buffer b).pending, ((s.work.buffer b).sectors[k]).cell.isDirty = true) →
        ∃ w, taken w ∧ w.entry q = none ∧ (∀ p, p ≠ q → w.entry p = s.work.entry p) ∧
          (w.desk hd.desk).outstanding = none ∧ (∀ c, ∀ op ∈ (w.drive c).queued, op.origin ≠ .request q) ∧
          (∀ b, (w.buffer b).heldBy ≠ some (.request q)) ∧ .request q ∉ w.waitList ∧
          w.lines = ((s.work.withReply hd.desk ⟨some (jobKind e.job), e.tag, .broken, .none⟩).withReply env.desk done).lines) ∧
      ∀ x a, e.job = .file x → e.active = some a → exec (.breakCheckOut env d.val slug) s =
        .next { s with work := settle s.cfg (s.work.withReply env.desk (refusal .breakIt env .inProgress)) }) ∧
  ∀ (env : Envelope) (n : Nat) (slug : Chars) (s : State), Served s env.desk .breakIt →
    let refused := fun code => exec (.breakCheckOut env n slug) s =
      .next { s with work := settle s.cfg (s.work.withReply env.desk (refusal .breakIt env code)) }
    (4 ≤ n ∨ slugOk slug = false → refused .badRequest) ∧
    ∀ d : DriveId, d.val = n → slugOk slug = true →
      ((s.work.drive d).enabled = false → refused .noDrive) ∧
      ((s.work.drive d).enabled = true → (s.work.drive d).vol.present = false → refused .notMounted) ∧
      ∀ m, Mounted s d m →
        (m.lookup slug).slot? = none ∨ (∃ i, (m.lookup slug).slot? = some i ∧ s.work.checkOutOf d i = none) →
        refused .noStory

/-- R121, R122, R123, R45, R60, R131, R135, R22: a CANCEL that finds nothing outstanding is ignored; one that finds a LIST stream
marks it CANCELLED unless it is marked; one that finds a WAITING request removes it and replies CANCELLED, except a REMOUNT, which
stays. One that finds a READ, WRITE, FILE or KILL ACTIVE ends it CANCELLED while no operation of its own transfers, and is noted
otherwise, with its other operations removed and its buffer and its wait given up. A KILL's mark is cleared. A WRITE is set back:
the block allocated for it is FREE and leaves the staging, its made-up sector is dropped, and the tail sector, where bytes were
placed in it, keeps those up to the unchanged staged length with zeros behind them and is DIRTY, also where it has been written
meanwhile (log 23). No handle changes but the staging of that WRITE's. A FORMAT ends CANCELLED with a FOREIGN volume before its
first FORMAT_TRACK has begun, is noted while a track is in progress, with the FORMAT_TRACKs of later tracks removed, and goes on
once its last track-side has begun (log 25). A REMOUNT goes on, and a second CANCEL changes nothing. What comes at once follows. -/
def Obligations.CancelActsOnTheOutstandingRequest : Prop :=
  (∀ (env : Envelope) (s : State), Heard s env.desk →
    ((s.work.desk env.desk).outstanding = none →
      exec (.cancel env) s = .next { s with work := settle s.cfg s.work }) ∧
    ∀ tag k st, (s.work.desk env.desk).outstanding = some ⟨tag, k, some st⟩ →
      (st.mark ≠ .none → exec (.cancel env) s = .next { s with work := settle s.cfg s.work }) ∧
      (st.mark = .none → exec (.cancel env) s = .next { s with work := settle s.cfg (s.work.updDesk env.desk fun x =>
        { x with outstanding := some ⟨tag, k, some { st with mark := .cancelled }⟩ }) })) ∧
  (∀ (env : Envelope) (q : QSlot) (e : Entry) (k : Option ReqKind) (s : State), Heard s env.desk →
    (s.work.desk env.desk).presence = .present → (s.work.desk env.desk).outstanding = some ⟨e.tag, k, none⟩ →
    s.work.entryOf env.desk = some (q, e) → s.work.entry q = some e → e.desk = env.desk → e.active = none →
    (e.job = .remount → exec (.cancel env) s = .next { s with work := settle s.cfg s.work }) ∧
    (e.job ≠ .remount → ∃ w, exec (.cancel env) s = .next { s with work := settle s.cfg w } ∧ w.entry q = none ∧
      (∀ p, p ≠ q → w.entry p = s.work.entry p) ∧ (w.desk env.desk).outstanding = none ∧
      w.line (lineOf env.desk) = (s.work.withReply env.desk
        ⟨some (jobKind e.job), e.tag, .cancelled, .none⟩).line (lineOf env.desk) ∧
      w.nextArrival = s.work.nextArrival ∧ w.handles = s.work.handles ∧
      ∀ d, (w.drive d).lastLane = (s.work.drive d).lastLane ∧ (w.drive d).pointer = (s.work.drive d).pointer ∧
        (w.drive d).vol = (s.work.drive d).vol ∧ (w.drive d).media = (s.work.drive d).media)) ∧
  ∀ (env : Envelope) (q : QSlot) (e : Entry) (a : Active) (k : Option ReqKind) (s : State), Heard s env.desk →
    (s.work.desk env.desk).presence = .present → (s.work.desk env.desk).outstanding = some ⟨e.tag, k, none⟩ →
    s.work.entryOf env.desk = some (q, e) → s.work.entry q = some e → e.desk = env.desk → e.active = some a →
    let unchanged := exec (.cancel env) s = .next { s with work := settle s.cfg s.work }
    let isFormat := ∃ name serial sides, e.job = .format name serial sides
    let transfers := ∃ d, ∃ op ∈ (s.work.drive d).queued, op.origin = .request q ∧ op.transferring = true
    let ended := fun (w : Work) => Work.Replied s.work q e .cancelled .none w ∧
      (∀ p, p ≠ q → w.entry p = s.work.entry p) ∧
      (∀ d, ∀ op ∈ (w.drive d).queued, op.origin ≠ .request q) ∧ (∀ b, (w.buffer b).heldBy ≠ some (.request q)) ∧
      .request q ∉ w.waitList
    (e.job = .remount ∨ a.cancelNoted = true → unchanged) ∧
    (a.cancelNoted = false → e.job ≠ .remount → ¬ isFormat → transfers →
      ∃ w p, exec (.cancel env) s = .next { s with work := settle s.cfg w } ∧
        w.entry q = some { e with active := some { a with cancelNoted := true, place := p } } ∧
        (∀ d, ∀ op ∈ (w.drive d).queued, op.origin = .request q → op.transferring = true) ∧
        (∀ b, (w.buffer b).heldBy ≠ some (.request q)) ∧ .request q ∉ w.waitList ∧ w.handles = s.work.handles ∧
        w.lines = s.work.lines ∧ w.desks = s.work.desks ∧ ∀ d, (w.drive d).media = (s.work.drive d).media) ∧
    (a.cancelNoted = false → e.job ≠ .remount → ¬ isFormat → ¬ transfers →
      ∃ w, exec (.cancel env) s = .next { s with work := settle s.cfg w } ∧ ended w ∧
        ((∀ h o x, e.job ≠ .write h o x) → w.handles = s.work.handles) ∧
        (∀ slug i st x m, e.job = .kill slug → (s.work.drive e.drive).media = some m → m.lookup slug = .filed i st x →
          (w.drive e.drive).media = some { m with catalogue := m.catalogue.set i (.filed st none) }) ∧
        ∀ h o x hd st tailPlaced newBlock m, e.job = .write h o x → a.progress = .write tailPlaced newBlock →
          s.work.handle h = some hd → hd.staging = some st → (s.work.drive hd.drive).media = some m →
          cellsFrom 0 m.cells = true →
          (∀ i, i ≠ h → w.handle i = s.work.handle i) ∧ (newBlock = none → w.handles = s.work.handles) ∧
          (∀ b, newBlock = some b →
            w.handle h = some { hd with staging := some { st with extents := dropBlock st.extents } } ∧
            (w.drive hd.drive).media.map (fun y => cellState y.cells b) = some .free) ∧
          let holds := fun block c => s.work.bufferOf (keyOf hd.drive m.label.sides block) = some c
          (∀ b c, newBlock = some b → holds b c → ((s.work.buffer c).sectors[blockSector b]).cell.isDirty = true →
            ((w.buffer c).sectors[blockSector b]).cell = .absent) ∧
          ∀ block c content, tailPlaced = true → (blocksOf st.extents)[st.length / 256]? = some block → holds block c →
            newBlock ≠ some block →
            ((s.work.buffer c).sectors[blockSector block]).cell = .valid content ∨
              ((s.work.buffer c).sectors[blockSector block]).cell = .dirty content →
            ((w.buffer c).sectors[blockSector block]).cell = .dirty (content.take (st.length % 256) ++
              List.replicate (256 - (content.take (st.length % 256)).length) 0)) ∧
    ∀ name serial sides p, a.cancelNoted = false → e.job = .format name serial sides → a.progress = .format p →
      let begun := ∃ op, (s.work.drive e.drive).current = some op ∧ op.origin = .request q ∧ op.kind = .formatTrack
      (77 * sides ≤ p.ended → unchanged) ∧
      (p.ended < 77 * sides → ¬ begun → ¬ transfers →
        ∃ w, exec (.cancel env) s = .next { s with work := settle s.cfg w } ∧ ended w ∧
          (w.drive e.drive).vol = .foreign ∧ w.handles = s.work.handles) ∧
      (begun → p.ended + 1 = 77 * sides → unchanged) ∧
      (begun → p.ended + 1 < 77 * sides →
        ∃ w place, exec (.cancel env) s = .next { s with work := settle s.cfg w } ∧
          w.entry q = some { e with active := some { a with cancelNoted := true, place := place } } ∧
          (w.drive e.drive).queued = (s.work.drive e.drive).queued.filter (fun op =>
            !(op.origin == .request q && !op.transferring && (s.work.drive e.drive).current.any (·.track != op.track))) ∧
          (∀ c, c ≠ e.drive → (w.drive c).queued = (s.work.drive c).queued) ∧ w.handles = s.work.handles ∧
          w.lines = s.work.lines ∧ w.desks = s.work.desks)

/-! ### Restart -/

/-- R180: a RESTART is replied OK and the part is RESTARTING, and nothing else changes yet; once no catalogue or label write is
transferring, the clearing empties the tables, tells every PRESENT desk, keeps the settings and the lines, and starts the
mounts; what comes at once follows. -/
def Obligations.RestartRepliesThenClears : Prop :=
  (∀ (env : Envelope) (s : State), Served s env.desk .restart →
    exec (.restart env) s =
      .next ({ s with work := { s.work with restarting := true } }.withReply env.desk (okReply .restart env .none))) ∧
  ∀ s : State, s.work.restarting = true →
    (∀ d, ∀ op ∈ (s.work.drive d).queued, op.transferring = true → op.kind ≠ .catalogueWrite ∧ op.kind ≠ .labelWrite) →
    ∃ c w, exec .restartClearing s = .next { s with cfg := c, work := settle c w } ∧
      { c with editions := s.cfg.editions } = s.cfg ∧
      (∀ i : Fin 6, (c.editions[i]).state = (s.cfg.editions[i]).derived s.cfg.clock) ∧
      w.restarting = false ∧ w.lastRestart = .restart ∧ (∀ h, w.handle h = none) ∧ (∀ r, w.record r = none) ∧
      (∀ q, w.entry q = none) ∧ w.owner = none ∧ w.waitList = [] ∧ w.lru = [0, 1, 2, 3, 4, 5] ∧
      (∀ b, w.buffer b = Buffer.powerOn) ∧
      (∀ k, (w.desk k).outstanding = none ∧ (w.desk k).noticesDropped = false ∧
        (w.desk k).presence = (s.work.desk k).presence ∧ (w.desk k).missCount = (s.work.desk k).missCount ∧
        (w.desk k).notices = if (s.work.desk k).presence = .present then [.restarted] else []) ∧
      (∀ l, w.line l = { s.work.line l with dropLastAdmitted := 8 }) ∧
      ∀ d, (w.drive d).lastLane = .ordinary ∧ (w.drive d).pointer = 31 ∧ (w.drive d).media = none ∧
        (w.drive d).enabled = (s.work.drive d).enabled ∧ (w.drive d).debounce = (s.work.drive d).debounce ∧
        (w.drive d).takenLevel = (s.work.drive d).takenLevel ∧
        (w.drive d).vol =
          (if (s.work.drive d).enabled = true ∧ (s.work.drive d).takenLevel = true then .mounting else .absent) ∧
        (w.drive d).ops =
          (if (s.work.drive d).enabled = true ∧ (s.work.drive d).takenLevel = true then
            [⟨.recalibrate, 0, 0, none, .none, .mount d, false⟩] else []) ∧
        (w.drive d).mech = (if (s.work.drive d).mech = .notReady then .notReady else .unloaded)

/-! ### The scheduler -/

/-- R113, R99: a waiting request that may be taken is in the URGENT lane when its desk is SLOT or its basket is in warning, and
in the ORDINARY lane otherwise. A dispatch takes the URGENT lane when an URGENT request waits and either the last lane is
ORDINARY or no ORDINARY request waits, and of it the oldest; otherwise the ORDINARY lane, and of it the request of the first
desk after the round-robin pointer; and nothing when nothing waits. -/
def Obligations.DispatchChoosesByLane : Prop :=
  ∀ (cfg : Cfg) (w : Work) (d : DriveId),
    let urgent := w.candidates cfg d .urgent
    let ordinary := w.candidates cfg d .ordinary
    let pointer := (w.drive d).pointer.val
    (∀ l q e, (q, e) ∈ w.candidates cfg d l ↔ w.entry q = some e ∧ e.drive = d ∧ w.mayTake e = true ∧
      (l = .urgent ↔ cfg.cls e.desk = .slot ∨ ∃ basket, w.jobBasket e = some basket ∧ basketWarning cfg basket = true)) ∧
    (∀ l q e, w.choose cfg d = some (l, q, e) →
      (l = .urgent → (q, e) ∈ urgent ∧ ((w.drive d).lastLane = .ordinary ∨ ordinary = []) ∧
        ∀ x ∈ urgent, e.arrival ≤ x.2.arrival) ∧
      (l = .ordinary → (q, e) ∈ ordinary ∧ ((w.drive d).lastLane = .urgent ∨ urgent = []) ∧
        ∀ x ∈ ordinary, (e.desk.val + 31 - pointer) % 32 ≤ (x.2.desk.val + 31 - pointer) % 32)) ∧
    (w.choose cfg d = none ↔ urgent = [] ∧ ordinary = [])

/-- R112, R114, R116: where a drive may dispatch, the request chosen becomes ACTIVE, the last lane is its lane and an ORDINARY
dispatch moves the pointer to its desk. A READ starts on its pieces. R40, R39: a KILL marks its slot and queues its catalogue
write; one that was checked at intake is refused NO_STORY where its slug is no longer FILED and LOCKED where the story is checked
out, and one that waited through a mount by the first of the refusals of R39 that applies. A FILE of version 9999 is refused
VERSION_LIMIT. R58, R25: a WRITE through a FROZEN check-out is refused FROZEN; one that needs a new block is given the first FREE
one at or after the cursor, or else from the first data block on, and the cursor passes it; without one it is refused
VOLUME_FULL, and where a ninth extent would be needed the block is given back and it is refused FRAGMENTED. R61, R62: a FILE is
refused FROZEN likewise, and otherwise flushes the READY buffers that hold DIRTY sectors of its staging. R19, R20: a FORMAT is
refused by the state of its volume, its handles and the protect line, and otherwise the volume is FORMATTING, without records,
buffers or other waiting requests, and a RECALIBRATE and seven FORMAT_TRACKs are queued. R23, R12: a REMOUNT tears the volume
down, and mounts it again if the taken level is high. On a volume that is not present only a FORMAT or a REMOUNT is taken, and on
one that is MOUNTING none. Where there is nothing to take, nothing is taken. What comes at once follows. -/
def Obligations.DispatchStartsTheRequest : Prop :=
  (∀ (d : DriveId) (s : State), (s.work.drive d).enabled = false ∨ s.work.restarting = true ∨
    s.work.activeOf d ≠ none ∨ (s.work.drive d).vol = .mounting →
    exec (.dispatch d) s = .next { s with work := settle s.cfg s.work }) ∧
  ∀ (d : DriveId) (s : State), (s.work.drive d).enabled = true → s.work.restarting = false →
    s.work.activeOf d = none → (s.work.drive d).vol ≠ .mounting →
    (∀ l q e, s.work.choose s.cfg d = some (l, q, e) → (s.work.drive d).vol.present = false →
      e.job = .remount ∨ ∃ name serial sides, e.job = .format name serial sides) ∧
    (s.work.choose s.cfg d = none → exec (.dispatch d) s = .next { s with work := settle s.cfg s.work }) ∧
    ∀ l q e, s.work.choose s.cfg d = some (l, q, e) → e.drive = d →
      let served := fun w : Work => (w.drive d).lastLane = l ∧
        (w.drive d).pointer = (if l = .ordinary then e.desk else (s.work.drive d).pointer) ∧
        (∀ p, p ≠ q → w.entry p = s.work.entry p) ∧ ∀ c, c ≠ d → w.drive c = s.work.drive c
      (∀ h hd offset count, e.job = .read h offset count → s.work.handle h = some hd →
        ∃ w, exec (.dispatch d) s = .next { s with work := settle s.cfg w } ∧ served w ∧
          w.entry q = some { e with active := some ⟨l, false, .run,
            .read (offset.getD hd.readPos) (readPieces (s.work.versionOf hd).2 (s.work.versionOf hd).1
              (offset.getD hd.readPos) count) []⟩ } ∧
          w.handles = s.work.handles ∧ w.buffers = s.work.buffers ∧ w.lines = s.work.lines) ∧
      let may := fun st : Story => grantFor s.cfg (s.cfg.cls e.desk) st.basket = .readWrite
      let shut := fun st : Story => basketClosed s.cfg st.basket = true ∧ s.cfg.cls e.desk ≠ .slot
      (∀ slug m i st k, e.job = .kill slug → (s.work.drive d).media = some m → m.lookup slug = .filed i st k →
        e.throughMount = false ∨ (may st ∧ ¬ shut st ∧ (s.work.drive d).vol = .mounted) →
        s.work.holderOf d i = none → (s.work.drive d).queued = [] →
        ∃ w, exec (.dispatch d) s = .next { s with work := settle s.cfg w } ∧ served w ∧
          w.entry q = some { e with active := some ⟨l, false, .catalogue, .plain⟩ } ∧
          (w.drive d).media = some { m with catalogue := m.catalogue.set i (.filed st (some e.desk)) } ∧
          (w.drive d).ops = [⟨.catalogueWrite, if i.val / 4 ≤ 13 then 0 else 1, 0, none, .entry (i.val / 4) i,
            .request q, false⟩] ∧
          w.handles = s.work.handles ∧ w.buffers = s.work.buffers ∧ w.lines = s.work.lines) ∧
      (∀ h hd st, e.job = .file h → s.work.handle h = some hd → hd.staging = some st → hd.state = .live →
        hd.base = some 9999 → (∀ c, (s.work.drive c).appendWait = []) →
        (∀ c, ∀ op ∈ (s.work.drive c).ops, op.origin ≠ .request q) →
        (∀ b, (s.work.buffer b).heldBy ≠ some (.request q)) → (s.work.desk e.desk).presence = .present →
        ∃ w, exec (.dispatch d) s = .next { s with work := settle s.cfg w } ∧ served w ∧ w.entry q = none ∧
          (w.desk e.desk).outstanding = none ∧ w.handles = s.work.handles ∧
          w.line (lineOf e.desk) =
            (s.work.withReply e.desk ⟨some .file, e.tag, .versionLimit, .none⟩).line (lineOf e.desk)) ∧
      let untouched := (∀ c, (s.work.drive c).appendWait = []) ∧
        (∀ c, ∀ op ∈ (s.work.drive c).ops, op.origin ≠ .request q) ∧
        (∀ b, (s.work.buffer b).heldBy ≠ some (.request q)) ∧ (s.work.desk e.desk).presence = .present
      let starts := fun (place : Place) (g : Progress) => some { e with active := some ⟨l, false, place, g⟩ }
      let refused := fun code => ∃ w, exec (.dispatch d) s = .next { s with work := settle s.cfg w } ∧ served w ∧
        Work.Replied s.work q e code .none w ∧ w.handles = s.work.handles
      let locked := fun holder => ∃ w, exec (.dispatch d) s = .next { s with work := settle s.cfg w } ∧ served w ∧
        Work.Replied s.work q e .locked (.locked holder) w ∧ w.handles = s.work.handles
      (∀ slug m, e.job = .kill slug → (s.work.drive d).media = some m → untouched →
        (e.throughMount = false →
          ((∀ i st k, m.lookup slug ≠ .filed i st k) → refused .noStory) ∧
          ∀ i st k holder, m.lookup slug = .filed i st k → s.work.holderOf d i = some holder → locked holder) ∧
        (e.throughMount = true →
          (m.lookup slug = .none → refused .noStory) ∧ ((∃ j, m.lookup slug = .damaged j) → refused .damaged) ∧
          (∀ i b holder, m.lookup slug = .reserved i b → s.work.holderOf d i = some holder → locked holder) ∧
          ∀ i st k, m.lookup slug = .filed i st k →
            (¬ may st → refused .denied) ∧ (may st → shut st → refused .closed) ∧
            (may st → ¬ shut st → (s.work.drive d).vol = .writeProtected → refused .writeProtected) ∧
            (may st → ¬ shut st → (s.work.drive d).vol = .writeFaulted → refused .writeFaulted) ∧
            ∀ holder, may st → ¬ shut st → (s.work.drive d).vol = .mounted → s.work.holderOf d i = some holder →
              locked holder)) ∧
      (∀ h hd st offset data, e.job = .write h offset data → s.work.handle h = some hd → hd.drive = d →
        hd.staging = some st →
        (untouched → hd.state = .frozen → refused .frozen) ∧
        (hd.state = .live → needsBlock st.length data.length = false →
          ∃ w, exec (.dispatch d) s = .next { s with work := settle s.cfg w } ∧ served w ∧
            w.entry q = starts .run (.write false none) ∧ w.handles = s.work.handles ∧ w.buffers = s.work.buffers ∧
            w.lines = s.work.lines ∧ (w.drive d).media = (s.work.drive d).media) ∧
        ∀ m, hd.state = .live → needsBlock st.length data.length = true → (s.work.drive d).media = some m →
          let first := firstBlock m.label.sides
          let past := first + dataBlocks m.label.sides
          let free := fun x => cellState m.cells x = .free
          first ≤ m.cursor → m.cursor ≤ past →
          (untouched → (∀ x, first ≤ x → x < past → ¬ free x) → refused .volumeFull) ∧
          ∀ b, free b → (m.cursor ≤ b ∧ b < past ∧ ∀ x, m.cursor ≤ x → x < b → ¬ free x) ∨
              (first ≤ b ∧ b < m.cursor ∧ (∀ x, m.cursor ≤ x → x < past → ¬ free x) ∧
                ∀ x, first ≤ x → x < b → ¬ free x) →
            (∀ xs, addBlock st.extents b = some xs →
              ∃ w, exec (.dispatch d) s = .next { s with work := settle s.cfg w } ∧ served w ∧
                w.entry q = starts .run (.write false (some b)) ∧
                w.handle h = some { hd with staging := some { st with extents := xs } } ∧
                (∀ i, i ≠ h → w.handle i = s.work.handle i) ∧
                (w.drive d).media = some { m with
                  cells := putCell b .staged m.cells, cursor := if b + 1 < past then b + 1 else first,
                  lastAlloc := some (b, m.cursor) } ∧
                w.buffers = s.work.buffers ∧ w.lines = s.work.lines) ∧
            (untouched → cellsFrom 0 m.cells = true → addBlock st.extents b = none →
              ∃ w x, exec (.dispatch d) s = .next { s with work := settle s.cfg w } ∧ served w ∧
                Work.Replied s.work q e .fragmented .none w ∧ w.handles = s.work.handles ∧
                (w.drive d).media = some x ∧ x.cells = m.cells ∧ x.cursor = m.cursor)) ∧
      (∀ h hd st, e.job = .file h → s.work.handle h = some hd → hd.drive = d → hd.staging = some st →
        (untouched → hd.state = .frozen → refused .frozen) ∧
        (hd.state = .live → hd.base ≠ some 9999 →
          let flushes := fun b => (s.work.buffer b).state = .ready ∧ ∃ block ∈ blocksOf st.extents, ∃ x,
            s.work.sectorOf d (s.work.sides d) block = some (b, x) ∧ x.cell.isDirty = true
          ∃ w, exec (.dispatch d) s = .next { s with work := settle s.cfg w } ∧ w.entry q = starts .barrier .plain ∧
            (w.drive d).lastLane = l ∧
            (∀ b, flushes b → (w.buffer b).state = .flushing ∧ ∃ key, (s.work.buffer b).key = some key ∧
              ⟨.writeSectors, key.track, key.side, some b, .none, .request q, false⟩ ∈ (w.drive d).queued) ∧
            (∀ b, ¬ flushes b → w.buffer b = s.work.buffer b) ∧ (∀ c, c ≠ d → w.drive c = s.work.drive c) ∧
            (w.drive d).media = (s.work.drive d).media ∧ w.handles = s.work.handles ∧ w.lines = s.work.lines)) ∧
      (∀ name serial sides, e.job = .format name serial sides → sides = 1 ∨ sides = 2 →
        let inUse := ∃ h hd, s.work.handle h = some hd ∧ hd.drive = d ∧ hd.isDefunct = false
        let vol := (s.work.drive d).vol
        (untouched → (vol = .absent → refused .notMounted) ∧ (vol ≠ .absent → inUse → refused .inUse) ∧
          (vol = .writeFaulted → ¬ inUse → refused .writeFaulted) ∧
          (vol ≠ .absent → vol ≠ .writeFaulted → ¬ inUse → vol = .writeProtected ∨ (s.work.drive d).protectLine = true →
            refused .writeProtected)) ∧
        (s.work.ownOps q = 0 → vol ≠ .absent → vol ≠ .writeFaulted → vol ≠ .writeProtected → ¬ inUse →
          (s.work.drive d).protectLine = false →
          ∃ w, exec (.dispatch d) s = .next { s with work := settle s.cfg w } ∧
            w.entry q = starts .formatting (.format ⟨7, 0, [], none⟩) ∧ (w.drive d).vol = .formatting ∧
            (w.drive d).media = none ∧ (w.drive d).appendWait = [] ∧
            (w.drive d).ops = ⟨.recalibrate, 0, 0, none, .none, .request q, false⟩ :: (List.range 7).map (fun i =>
              ⟨.formatTrack, i / sides, i % sides, none, .none, .request q, false⟩) ∧
            (∀ b, ¬ (w.buffer b).key.any (·.drive == d)) ∧ w.handles = s.work.handles ∧
            ∀ p x, p ≠ q → s.work.entry p = some x → x.drive = d → x.active = none → w.entry p = none)) ∧
      (e.job = .remount →
        ∃ w, exec (.dispatch d) s = .next { s with work := settle s.cfg w } ∧
          (∀ p x, p ≠ q → s.work.entry p = some x → x.drive = d → w.entry p = none) ∧
          (∀ h hd, s.work.handle h = some hd → hd.drive = d → hd.isDefunct = false →
            w.handle h = some { hd with state := .defunct .lost, pin := none, staging := none }) ∧
          (w.drive d).media = none ∧
          ((s.work.drive d).mech = .faulted → (w.drive d).mech = .unloaded ∧ (w.drive d).head = none) ∧
          ((s.work.drive d).takenLevel = true → (w.drive d).vol = .mounting ∧
            (w.drive d).mount = some ⟨.wanting, none, none, []⟩ ∧
            (w.drive d).ops = [⟨.recalibrate, 0, 0, none, .none, .mount d, false⟩] ∧
            w.entry q = starts .mounting .plain) ∧
          ((s.work.drive d).takenLevel = false → (w.drive d).vol = .absent ∧ w.entry q = none ∧
            (w.desk e.desk).outstanding = none))

/-- R130, R55: the next effect of an ACTIVE READ that is due replies it, when its last piece is copied, and moves the read
position; else, where the sectors of the pieces that lie on the next track-side are VALID, it copies their bytes and lets its
buffer go; else, with a READY buffer in hand, it queues the READ_TRACK of that track-side; else it asks for a buffer. R131, R59:
that of an ACTIVE WRITE asks for the buffer of the tail sector, or else of the new block; with it, the bytes of the tail are put
behind the staged length, after a READ_TRACK where the sector is ABSENT, and those of the new block in a sector filled with
zeros; the sector is DIRTY, and with the last byte the staged length moves and the WRITE is replied. R127: between the two it
keeps the buffer where they lie on one track-side, and lets it go where they do not. R128: a FREE buffer is the asker's at once
while no event of the pool is due (log 40). R134: one whose eviction flush has ended asks anew, before the wait list, and one
whose flush left sectors to relocate does so when they are placed (log 56). R62: a FILE's barrier waits for its flushes and for
every buffer that holds a DIRTY sector of its staging to be READY, flushes them again where there are any, and is done where
there are none. R123, R67, R60: a request with a noted CANCEL does nothing while an operation of its own transfers; then a READ,
a WRITE, set back, and a FILE, none of whose sectors awaits its relocation (log 22), end CANCELLED. R7, R136: a mount or a
relocation that wants its buffer, or whose eviction flush has ended, asks for it. R63, R64, R34, R21: after its barrier a FILE
queues a label write if additions are pending, and passes the step over if none are; then it queues the catalogue write of its
slot; after its last track-side a FORMAT begins its record writes with catalogue sectors 0 to 7. What comes at once follows. -/
def Obligations.FileAndFormatStepsQueueWrites : Prop :=
  (∀ (d : DriveId) (q : QSlot) (e : Entry) (a : Active) (h : HandleIx) (hd : Handle) (w : Work),
    w.activeOf d = some (q, e, a) → w.entry q = some e → e.active = some a → e.drive = d → a.cancelNoted = false →
    w.handle h = some hd → hd.drive = d →
    let now := fun (place : Place) (g : Progress) => some { e with active := some { a with place := place, progress := g } }
    let obtains := fun (key : TrackKey) (b : BufId) => (w.poolDue = false ∨ w.waitList = []) ∧ w.bufferOf key = none ∧
      w.lru.find? (fun x => (w.buffer x).state == .free) = some b
    let obtained := fun (key : TrackKey) (b : BufId) (w' : Work) => (w'.buffer b).state = .ready ∧
      (w'.buffer b).key = some key ∧ (w'.buffer b).heldBy = some (.request q) ∧ (w'.buffer b).bare = true ∧
      (∀ c, c ≠ b → w'.buffer c = w.buffer c) ∧ w'.drives = w.drives ∧ w'.handles = w.handles ∧ w'.lines = w.lines
    let fills := fun (b : BufId) (key : TrackKey) (w' : Work) => (w'.buffer b).state = .filling ∧
      ⟨.readTrack, key.track, key.side, some b, .none, .request q, false⟩ ∈ (w'.drive key.drive).queued ∧
      w'.handles = w.handles ∧ w'.lines = w.lines
    let afresh := a.place = .evicted ∨ ∃ c, a.place = .draining c ∧ (w.buffer c).pending = []
    let waits := a.place = .evicting ∨ a.place = .waiting ∨ (∃ b, a.place = .filling b) ∨
      ∃ c, a.place = .draining c ∧ (w.buffer c).pending ≠ []
    (∀ st, e.job = .file h → a.place = .barrier → hd.staging = some st →
      let dirty := fun b => ∃ block ∈ blocksOf st.extents, ∃ x, w.sectorOf d (w.sides d) block = some (b, x) ∧
        x.cell.isDirty = true
      (w.ownOps q ≠ 0 ∨ (∃ b, dirty b ∧ (w.buffer b).state ≠ .ready) → w.advance d = none) ∧
      (w.ownOps q = 0 → (∀ b, ¬ dirty b) → ∃ w', w.advance d = some w' ∧ w'.entry q = now .barrierDone a.progress ∧
        (∀ p, p ≠ q → w'.entry p = w.entry p) ∧ w'.buffers = w.buffers ∧ w'.drives = w.drives ∧ w'.handles = w.handles ∧
        w'.lines = w.lines) ∧
      (w.ownOps q = 0 → (∃ b, dirty b) → (∀ b, dirty b → (w.buffer b).state = .ready) →
        ∃ w', w.advance d = some w' ∧ w'.queue = w.queue ∧ w'.handles = w.handles ∧ w'.lines = w.lines ∧
          (∀ b, dirty b → (w'.buffer b).state = .flushing ∧ ∃ key, (w.buffer b).key = some key ∧
            ⟨.writeSectors, key.track, key.side, some b, .none, .request q, false⟩ ∈ (w'.drive d).queued) ∧
          ∀ b, ¬ dirty b → w'.buffer b = w.buffer b)) ∧
    (∀ offset count from_ todo area, e.job = .read h offset count → a.progress = .read from_ todo area →
      let replied := ∃ w', w.advance d = some w' ∧ Work.Replied w q e .ok (.read from_ area) w' ∧
        w'.handle h = some { hd with readPos := from_ + area.length } ∧ (∀ i, i ≠ h → w'.handle i = w.handle i) ∧
        ∀ b, (w'.buffer b).heldBy ≠ some (.request q)
      (todo = [] → (w.desk e.desk).presence = .present → replied) ∧
      ∀ p ps, todo = p :: ps →
        let group := todo.takeWhile fun x => x.block / 15 == p.block / 15
        let key := keyOf d (w.sides d) p.block
        (∀ bytes, w.validPieces d group = some bytes →
          a.place = .run ∨ afresh ∨ (∃ b, a.place = .holding b ∧ (w.buffer b).state = .ready) →
          ∃ w', w.advance d = some w' ∧
            w'.entry q = now .run (.read from_ (todo.drop group.length) (area ++ bytes)) ∧
            (∀ b, (w'.buffer b).heldBy ≠ some (.request q)) ∧ w'.drives = w.drives ∧ w'.handles = w.handles ∧
            w'.lines = w.lines) ∧
        (waits → w.advance d = none) ∧
        (w.validPieces d group = none →
          (a.place = .run → w.advance d = some (w.ask (.request q) key)) ∧
          (afresh → w.advance d = some (w.askNow (.request q) key)) ∧
          (∀ b, a.place = .run → obtains key b →
            ∃ w', w.advance d = some w' ∧ w'.entry q = now (.holding b) a.progress ∧ obtained key b w') ∧
          (∀ b key', a.place = .holding b → (w.buffer b).state = .ready → (w.buffer b).key = some key' →
            ∃ w', w.advance d = some w' ∧ w'.entry q = now (.filling b) a.progress ∧ fills b key' w'))) ∧
    ∀ offset data st tailPlaced newBlock, e.job = .write h offset data → a.progress = .write tailPlaced newBlock →
      hd.staging = some st →
      let tail := if st.length % 256 = 0 then [] else data.take (256 - st.length % 256)
      let rest := if st.length % 256 = 0 then data else data.drop (256 - st.length % 256)
      let replied := fun w' => Work.Replied w q e .ok (.written (offset + data.length)) w' ∧
        w'.handle h = some { hd with staging := some { st with length := offset + data.length } } ∧
        (∀ i, i ≠ h → w'.handle i = w.handle i) ∧ ∀ b, (w'.buffer b).heldBy ≠ some (.request q)
      let tails := tail ≠ [] ∧ tailPlaced = false
      let target := fun block => (tails ∧ (blocksOf st.extents)[st.length / 256]? = some block) ∨
        (¬ tails ∧ rest ≠ [] ∧ newBlock = some block)
      (¬ tails → rest = [] → (w.desk e.desk).presence = .present → ∃ w', w.advance d = some w' ∧ replied w') ∧
      ∀ block, target block →
        let key := keyOf d (w.sides d) block
        (a.place = .run → w.advance d = some (w.ask (.request q) key)) ∧
        (afresh → w.advance d = some (w.askNow (.request q) key)) ∧ (waits → w.advance d = none) ∧
        (∀ b, a.place = .run → obtains key b →
          ∃ w', w.advance d = some w' ∧ w'.entry q = now (.holding b) a.progress ∧ obtained key b w') ∧
        (∀ b key', a.place = .holding b → (w.buffer b).key = some key' → key' ≠ key →
          ∃ w', w.advance d = some w' ∧ w'.entry q = now .run a.progress ∧
            ∀ c, (w'.buffer c).heldBy ≠ some (.request q)) ∧
        ∀ b, a.place = .holding b → (w.buffer b).key = some key →
          let cell := ((w.buffer b).sectors[blockSector block]).cell
          (tails → cell = .absent → (w.buffer b).state = .ready →
            ∃ w', w.advance d = some w' ∧ w'.entry q = now (.filling b) a.progress ∧ fills b key w') ∧
          (∀ content, tails → cell = .valid content ∨ cell = .dirty content →
            let same := ∃ nb, newBlock = some nb ∧ keyOf d (w.sides d) nb = key
            ∃ w', w.advance d = some w' ∧
              (same → w'.entry q = now (.holding b) (.write true newBlock) ∧
                ∀ c, (w'.buffer c).heldBy = (w.buffer c).heldBy) ∧
              (¬ same → w'.entry q = now .run (.write true newBlock) ∧ ∀ c, (w'.buffer c).heldBy ≠ some (.request q)) ∧
              ((w'.buffer b).sectors[blockSector block]).cell = .dirty (content.take (st.length % 256) ++ tail ++
                content.drop (st.length % 256 + tail.length)) ∧ w'.handles = w.handles ∧ w'.lines = w.lines) ∧
          (¬ tails → (w.desk e.desk).presence = .present →
            ∃ w', w.advance d = some w' ∧ replied w' ∧
              ((w'.buffer b).sectors[blockSector block]).cell =
                .dirty (rest.take 256 ++ List.replicate (256 - rest.length) 0))) ∧
  (∀ (d : DriveId) (q : QSlot) (e : Entry) (a : Active) (w : Work), w.activeOf d = some (q, e, a) →
    w.entry q = some e → e.active = some a → a.cancelNoted = true → (w.desk e.desk).presence = .present →
    let transfers := ∃ c, ∃ op ∈ (w.drive c).queued, op.origin = .request q ∧ op.transferring = true
    let ended := fun w' : Work => Work.Replied w q e .cancelled .none w' ∧ (∀ p, p ≠ q → w'.entry p = w.entry p) ∧
      (∀ c, ∀ op ∈ (w'.drive c).queued, op.origin ≠ .request q) ∧ (∀ b, (w'.buffer b).heldBy ≠ some (.request q)) ∧
      .request q ∉ w'.waitList
    (transfers → w.advance d = none) ∧
    (∀ h offset count, ¬ transfers → e.job = .read h offset count →
      ∃ w', w.advance d = some w' ∧ ended w' ∧ w'.handles = w.handles) ∧
    (∀ h hd st m, ¬ transfers → e.job = .file h → w.handle h = some hd → hd.staging = some st →
      (w.drive hd.drive).media = some m → w.KeysDistinct →
      let relocating := ∃ block ∈ blocksOf st.extents, w.FailingBlock hd.drive m.label.sides block
      (relocating → w.advance d = none) ∧
      (¬ relocating → ∃ w', w.advance d = some w' ∧ ended w' ∧ w'.handles = w.handles)) ∧
    (∀ h o x hd st tailPlaced newBlock m, ¬ transfers → e.job = .write h o x → a.progress = .write tailPlaced newBlock →
      w.handle h = some hd → hd.staging = some st → (w.drive hd.drive).media = some m → cellsFrom 0 m.cells = true →
      ∃ w', w.advance d = some w' ∧ ended w' ∧ (newBlock = none → w'.handles = w.handles) ∧
        ∀ b, newBlock = some b →
          w'.handle h = some { hd with staging := some { st with extents := dropBlock st.extents } } ∧
          (w'.drive hd.drive).media.map (fun y => cellState y.cells b) = some .free) ∧
    (e.job = .remount ∨ (∃ slug, e.job = .kill slug) ∨ (∃ name serial sides, e.job = .format name serial sides) →
      w.advance d = none)) ∧
  (∀ (d : DriveId) (m : Mount) (w : Work), (w.drive d).mount = some m →
    let drained := ∃ c, m.place = .draining c ∧ (w.buffer c).pending = []
    (m.place = .wanting → w.stepMount d = some (w.ask (.mount d) ⟨d, 0, 0⟩)) ∧
    (m.place = .evicted ∨ drained → w.stepMount d = some (w.askNow (.mount d) ⟨d, 0, 0⟩)) ∧
    (m.place ≠ .wanting → m.place ≠ .evicted → ¬ drained → w.stepMount d = none)) ∧
  (∀ (b : BufId) (key : TrackKey) (r : Reloc) (w : Work), (w.buffer b).key = some key → (w.buffer b).reloc = some r →
    let wanted := keyOf key.drive (w.sides key.drive) r.replacement
    let drained := ∃ c, r.place = .draining c ∧ (w.buffer c).pending = []
    (r.place = .wanting → w.stepReloc b = some (w.ask (.relocation b) wanted)) ∧
    (r.place = .evicted ∨ drained → w.stepReloc b = some (w.askNow (.relocation b) wanted)) ∧
    (r.place ≠ .wanting → r.place ≠ .evicted → ¬ drained → w.stepReloc b = none)) ∧
  ∀ (d : DriveId) (q : QSlot) (e : Entry) (l : Lane) (s : State),
    (∀ p m, s.work.activeOf d = some (q, e, ⟨l, false, .barrierDone, p⟩) → (s.work.drive d).media = some m →
      (m.additions = [] →
        exec (.labelStep d) s = .next { s with work := settle s.cfg (s.work.setPlace q .labelDone) }) ∧
      (m.additions ≠ [] →
        exec (.labelStep d) s = .next { s with work := settle s.cfg ((s.work.append d
          ⟨.labelWrite, 0, 0, none, .none, .request q, false⟩).setPlace q .label) })) ∧
    (∀ p h hd, s.work.activeOf d = some (q, e, ⟨l, false, .labelDone, p⟩) → e.job = .file h →
      s.work.handle h = some hd →
      exec (.catalogueStep d) s = .next { s with work := settle s.cfg ((s.work.append d
        ⟨.catalogueWrite, if hd.slot.val / 4 ≤ 13 then 0 else 1, 0, none, .entry (hd.slot.val / 4) hd.slot, .request q,
          false⟩).setPlace q .catalogue) }) ∧
    ∀ place name serial sides bad,
      s.work.activeOf d = some (q, e, ⟨l, false, place, .format ⟨77 * sides, 77 * sides, bad, none⟩⟩) →
      s.work.entry q = some e → e.active = some ⟨l, false, place, .format ⟨77 * sides, 77 * sides, bad, none⟩⟩ →
      e.job = .format name serial sides → e.drive = d → s.work.ownOps q = 0 → (s.work.drive d).queued = [] →
      ∃ w, exec (.formatRecords d) s = .next { s with work := settle s.cfg w } ∧
        (w.drive d).ops = (List.range 8).map (fun c =>
          ⟨.catalogueWrite, 0, 0, none, .empty c, .request q, false⟩) ∧
        w.entry q = some { e with active := some ⟨l, false, place, .format ⟨77 * sides, 77 * sides, bad, some (8, 0)⟩⟩ } ∧
        (∀ c, c ≠ d → w.drive c = s.work.drive c) ∧ w.handles = s.work.handles ∧ w.lines = s.work.lines

/-! ### A drive's lines and movements -/

/-- R6, R158: a change of the ready line starts the debounce when it goes away from the taken level and stops it when it
comes back; an index pulse restarts an index watch that runs, and counts in the attempt of a drive that is TRANSFERRING (R153,
R155: log 32). Nothing else changes; the write-protect level that the commands carry is the model's choice (log 5). -/
def Obligations.ReadyLineAndIndexPulse : Prop :=
  ∀ (d : DriveId) (level protect : Bool) (s : State),
    let counted := fun dr : Drive =>
      { dr.attempt with pulses := if dr.mech = .transferring then dr.attempt.pulses + 1 else dr.attempt.pulses }
    ((s.work.drive d).enabled = true → (s.work.drive d).readyLine = !level →
      exec (.readyLineChange d level protect) s = .next { s with work := s.work.updDrive d fun dr =>
        { dr with readyLine := level, protectLine := protect,
                  debounce := if level = dr.takenLevel then none else some 500 } }) ∧
    ((s.work.drive d).enabled = false ∨ (s.work.drive d).readyLine = level →
      exec (.readyLineChange d level protect) s = .next { s with work := s.work.updDrive d fun dr =>
        { dr with readyLine := level, protectLine := protect } }) ∧
    ((s.work.drive d).indexWatch.isSome = true →
      exec (.indexPulse d protect) s = .next { s with work := s.work.updDrive d fun dr =>
        { dr with protectLine := protect, indexWatch := some 1000, attempt := counted dr } }) ∧
    ((s.work.drive d).indexWatch = none →
      exec (.indexPulse d protect) s = .next { s with work := s.work.updDrive d fun dr =>
        { dr with protectLine := protect, attempt := counted dr } })

/-- R6, R7, R12, R13, R141: a taken rise leaves the drive UNLOADED with its head position unknown and its index watch running,
and its volume MOUNTING with a RECALIBRATE queued. A taken fall of a volume that is neither ABSENT nor MOUNTING leaves the drive
NOT_READY and the volume ABSENT, without operations, requests, records or buffers; its handles are DEFUNCT with cause LOST, and
each desk that had one that was not DEFUNCT is told; a request of it, the running FORMAT of a FORMATTING volume among them (R22),
is replied VOLUME_GONE. A taken fall during MOUNTING ends the mount with the volume ABSENT (R7): the requests that wait are
refused, but for FORMAT and REMOUNT, and an ACTIVE REMOUNT is replied OK with ABSENT. What comes at once follows. R8, R9, R10,
R11: the end of the mount's READ_TRACK of track 0 leaves the volume UNREADABLE or FOREIGN without a valid label, and with one
goes on to track 1 in the same buffer; the end of that of track 1 leaves the volume UNREADABLE where more than 8 of the 29
catalogue sectors were unreadable, and otherwise PROTECTED or MOUNTED by the protect line, with the catalogue that the sectors
give and the map that it and the label give. A mount that ends frees its buffer, replies an ACTIVE REMOUNT, and refuses the
waiting requests where there is no volume, but for FORMAT and REMOUNT. -/
def Obligations.TakenLevelMountsOrTearsDown : Prop :=
  (∀ (d : DriveId) (s : State), (s.work.drive d).enabled = true → (s.work.drive d).debounce.isSome = true →
    (s.work.drive d).readyLine = true → (s.work.drive d).takenLevel = false → (s.work.drive d).ops = [] →
    exec (.debounceExpiry d) s = .next { s with work := settle s.cfg (s.work.updDrive d fun dr =>
      { dr with debounce := none, takenLevel := true, mech := .unloaded, head := none, indexWatch := some 1000,
                vol := .mounting, mount := some ⟨.wanting, none, none, []⟩,
                ops := [⟨.recalibrate, 0, 0, none, .none, .mount d, false⟩], unloadTimer := none,
                unloadPending := false, idleRelocs := [] }) }) ∧
  (∀ (label : Label) (catalogue : Vector Slot 116) (b : Nat),
    let m := freshMedia label catalogue
    let claimed := ∃ (i : CatSlot) (st : Story) (k : Option DeskNo), catalogue[i] = .filed st k ∧ b ∈ blocksOf st.extents
    m.label = label ∧ m.catalogue = catalogue ∧ m.additions = [] ∧ m.badListFull = false ∧
      m.cursor = (if label.sides = 2 then 60 else 30) ∧
      (claimed → cellState m.cells b = .filed) ∧ (¬ claimed → b ∈ label.badBlocks → cellState m.cells b = .bad) ∧
      (¬ claimed → b ∉ label.badBlocks → cellState m.cells b = .free)) ∧
  (∀ (d : DriveId) (b : BufId) (w : Work), (∀ q e a, w.activeOf d = some (q, e, a) → e.job = .remount) →
    let read := (w.buffer b).readable
    let ends := fun (v : VolState) (media : Option Media) => let w' := w.mountRead d
      (w'.drive d).vol = v ∧ (w'.drive d).media = media ∧ (w'.drive d).mount = none ∧ (w'.drive d).queued = [] ∧
      (∀ c, (w'.buffer c).heldBy ≠ some (.mount d)) ∧
      (∀ q e, w.entry q = some e → e.drive = d → e.active = none →
        let stays := v.present = true ∨ e.job = .remount ∨ ∃ name serial sides, e.job = .format name serial sides
        (stays → w'.entry q = some e) ∧ (¬ stays → w'.entry q = none)) ∧
      ∀ q e a, w.activeOf d = some (q, e, a) → w'.entry q = none ∧ (w'.desk e.desk).outstanding = none
    (∀ x y, (w.drive d).mount = some ⟨.track0, some b, x, y⟩ →
      (read 0 = none → ends .unreadable none) ∧
      ∀ bs, read 0 = some bs → (readLabel bs = .foreign → ends .foreign none) ∧
        (readLabel bs = .invalid → ends .unreadable none) ∧
        ∀ label, readLabel bs = .valid label → let w' := w.mountRead d
          (w'.drive d).mount = some ⟨.track1, some b, some label, ((List.finRange 15).drop 1).map read⟩ ∧
          (w'.buffer b).state = .filling ∧ (w'.buffer b).key = some ⟨d, 1, 0⟩ ∧ (w'.buffer b).bare = true ∧
          (w'.buffer b).heldBy = (w.buffer b).heldBy ∧
          ⟨.readTrack, 1, 0, some b, .none, .mount d, false⟩ ∈ (w'.drive d).queued ∧
          (w'.drive d).vol = (w.drive d).vol ∧ (w'.drive d).media = (w.drive d).media ∧ w'.queue = w.queue ∧
          ∀ c, c ≠ b → w'.buffer c = w.buffer c) ∧
    ∀ label track0, (w.drive d).mount = some ⟨.track1, some b, some label, track0⟩ →
      let sectors := track0 ++ (List.finRange 15).map read
      (8 < sectors.countP (·.isNone) → ends .unreadable none) ∧
      (sectors.countP (·.isNone) ≤ 8 → ends (if (w.drive d).protectLine = true then .writeProtected else .mounted)
        (some (freshMedia label (readCatalogue label sectors))))) ∧
  ∀ (d : DriveId) (s : State), (s.work.drive d).enabled = true → (s.work.drive d).debounce.isSome = true →
    (s.work.drive d).readyLine = false → (s.work.drive d).takenLevel = true →
    ((s.work.drive d).vol = .mounting → (∀ q e a, s.work.activeOf d = some (q, e, a) → e.job = .remount) →
      ∃ w, exec (.debounceExpiry d) s = .next { s with work := settle s.cfg w } ∧
        (w.drive d).takenLevel = false ∧ (w.drive d).mech = .notReady ∧ (w.drive d).head = none ∧
        (w.drive d).indexWatch = none ∧ (w.drive d).unloadTimer = none ∧ (w.drive d).vol = .absent ∧
        (w.drive d).media = none ∧ (w.drive d).mount = none ∧ (w.drive d).queued = [] ∧
        ((s.work.drive d).mech = .transferring → w.owner ≠ some d) ∧ (∀ b, (w.buffer b).heldBy ≠ some (.mount d)) ∧
        .mount d ∉ w.waitList ∧ w.handles = s.work.handles ∧ w.retired = s.work.retired ∧
        (∀ q e, s.work.entry q = some e → e.drive = d → e.active = none →
          let stays := e.job = .remount ∨ ∃ name serial sides, e.job = .format name serial sides
          (stays → w.entry q = some e) ∧ (¬ stays → w.entry q = none ∧ (w.desk e.desk).outstanding = none)) ∧
        ∀ q e a, s.work.activeOf d = some (q, e, a) → (w.entry q = none ∧ (w.desk e.desk).outstanding = none) ∧
          ((s.work.desk e.desk).presence = .present →
            (∀ p x, s.work.entry p = some x → x.drive = d → lineOf x.desk = lineOf e.desk → p = q) →
            w.line (lineOf e.desk) =
              (s.work.withReply e.desk ⟨some .remount, e.tag, .ok, .remounted .absent⟩).line (lineOf e.desk))) ∧
    ((s.work.drive d).vol ≠ .mounting → (s.work.drive d).vol ≠ .absent →
    ∃ w, exec (.debounceExpiry d) s = .next { s with work := settle s.cfg w } ∧
      (w.drive d).takenLevel = false ∧ (w.drive d).mech = .notReady ∧ (w.drive d).head = none ∧
      (w.drive d).indexWatch = none ∧ (w.drive d).unloadTimer = none ∧ (w.drive d).vol = .absent ∧
      (w.drive d).media = none ∧ (w.drive d).ops = [] ∧ (w.drive d).appendWait = [] ∧
      ((s.work.drive d).mech = .transferring → w.owner ≠ some d) ∧
      (∀ q e, s.work.entry q = some e → e.drive = d → w.entry q = none ∧
        ((s.work.desk e.desk).presence = .present →
          (∀ p x, s.work.entry p = some x → x.drive = d → lineOf x.desk = lineOf e.desk → p = q) →
          Work.Replied s.work q e .volumeGone .none w)) ∧
      (∀ r x, s.work.record r = some x → x.drive = d → w.record r = none) ∧
      (∀ b, ¬ (w.buffer b).key.any (·.drive == d)) ∧
      (∀ h hd, s.work.handle h = some hd → w.handle h =
        if hd.drive = d ∧ hd.isDefunct = false then
          some { hd with state := .defunct .lost, pin := none, staging := none }
        else some hd) ∧
      (∀ h, s.work.handle h = none → w.handle h = none) ∧
      ∀ k, let own := allHandles.filter fun h =>
          (s.work.handle h).any fun hd => hd.desk == k && hd.drive == d && !hd.isDefunct
        (w.desk k).notices =
          if own = [] then (s.work.desk k).notices else ((s.work.desk k).addNotice (.lost d own)).notices)

/-- R158, R14, R7, R20: when the index watch of a drive expires, the drive is FAULTED with its head position unknown and nothing
queued. A volume that is MOUNTED, PROTECTED or WRITE_FAULTED is UNREADABLE, its requests ended and its handles DEFUNCT with cause
LOST. A mount ends with the volume UNREADABLE: the requests that wait are refused, but for FORMAT and REMOUNT, and an ACTIVE
REMOUNT ends. A running FORMAT is replied MEDIA_ERROR, and the volume is UNREADABLE. Any other volume stays as it is. What comes
at once follows. -/
def Obligations.IndexLossFaultsTheDrive : Prop :=
  (∀ (d : DriveId) (s : State), (s.work.drive d).indexWatch.isSome = true →
    let faulted := fun (w : Work) (v : VolState) => exec (.indexWatchExpiry d) s = .next { s with work := settle s.cfg w } ∧
      (w.drive d).mech = .faulted ∧ (w.drive d).head = none ∧ (w.drive d).indexWatch = none ∧
      (w.drive d).unloadTimer = none ∧ (w.drive d).unloadPending = false ∧ (w.drive d).ops = [] ∧
      (w.drive d).appendWait = [] ∧ (w.drive d).vol = v ∧ ((s.work.drive d).mech = .transferring → w.owner ≠ some d)
    ((s.work.drive d).vol = .mounting → (∀ q e a, s.work.activeOf d = some (q, e, a) → e.job = .remount) →
      ∃ w, faulted w .unreadable ∧ (w.drive d).media = none ∧ (w.drive d).mount = none ∧
        (∀ b, (w.buffer b).heldBy ≠ some (.mount d)) ∧ .mount d ∉ w.waitList ∧ w.handles = s.work.handles ∧
        (∀ q e, s.work.entry q = some e → e.drive = d → e.active = none →
          let stays := e.job = .remount ∨ ∃ name serial sides, e.job = .format name serial sides
          (stays → (∀ op ∈ (s.work.drive d).queued, op.origin ≠ .request q) → w.entry q = some e) ∧
          (¬ stays → w.entry q = none)) ∧
        ∀ q e a, s.work.activeOf d = some (q, e, a) → w.entry q = none ∧ (w.desk e.desk).outstanding = none) ∧
    (∀ q e a name serial sides, (s.work.drive d).vol = .formatting → s.work.activeOf d = some (q, e, a) →
      s.work.entry q = some e → e.job = .format name serial sides → e.drive = d →
      (s.work.desk e.desk).presence = .present →
      ∃ w, faulted w .unreadable ∧ Work.Replied s.work q e .mediaError .none w ∧ w.handles = s.work.handles) ∧
    ((s.work.drive d).vol ∈ [.absent, .foreign, .unreadable] →
      ∃ w, faulted w (s.work.drive d).vol ∧ ((s.work.drive d).media = none → (w.drive d).media = none))) ∧
  ∀ (d : DriveId) (s : State), (s.work.drive d).indexWatch.isSome = true → (s.work.drive d).vol.present = true →
    ∃ w, exec (.indexWatchExpiry d) s = .next { s with work := settle s.cfg w } ∧ (w.drive d).mech = .faulted ∧
      (w.drive d).head = none ∧ (w.drive d).indexWatch = none ∧ (w.drive d).unloadTimer = none ∧
      (w.drive d).unloadPending = false ∧ (w.drive d).ops = [] ∧ (w.drive d).appendWait = [] ∧
      (w.drive d).vol = .unreadable ∧ (w.drive d).media = none ∧
      ((s.work.drive d).mech = .transferring → w.owner ≠ some d) ∧
      (∀ q e, s.work.entry q = some e → e.drive = d → w.entry q = none) ∧
      (∀ h hd, s.work.handle h = some hd → hd.drive = d → hd.isDefunct = false →
        w.handle h = some { hd with state := .defunct .lost, pin := none, staging := none }) ∧
      ∀ c, c ≠ d → (w.drive c).vol = (s.work.drive c).vol ∧ (w.drive c).media = (s.work.drive c).media

/-- R142 to R144, R148: the operation at the head of an UNLOADED drive's queue selects the drive and loads the head for 35 ms;
that of an IDLE drive begins its first movement at once, which is also what follows when the head is loaded: a recalibration from
an unknown position or for RECALIBRATE, steps toward its track, or the wait for the channel when the head is there. A step moves
the head by one track; on its track the drive settles; after the settle it waits for the channel. At each look of a recalibration
the track-0 signal, which the command carries (log 5), gives the head position 0 and the settle; without it the drive steps, by
which a known head position counts down and an unknown one stays unknown, the model's reading (log 29), and after 80 steps it is
FAULTED. The settle that ends a RECALIBRATE ends the operation, and one that ends the recalibration of another goes on toward its
track. R149: a movement whose operation is removed runs on to its end, a step to its settle and a recalibration to a head
position that is unknown, and leaves the drive IDLE; a wait for the channel and a transfer leave it IDLE at once. R159: an
operation on a FAULTED drive fails at once with DRIVE_FAULT: its request is replied MEDIA_ERROR, a FORMAT so with the volume
UNREADABLE (R20), and the drive stays FAULTED. What comes at once follows. -/
def Obligations.HeadMovements : Prop :=
  (∀ (cfg : Cfg) (d : DriveId) (op : Op) (rest : List Op) (w : Work), (w.drive d).ops = op :: rest →
    let begins := fun (f : Drive → Drive) =>
      w.stepDrive cfg d = some (w.updDrive d fun dr => f { dr with attempt := Attempt.none })
    ((w.drive d).mech = .unloaded → begins fun dr =>
      { dr with mech := .loading, moveTimer := some 35, selected := true, headLoad := true }) ∧
    ((w.drive d).mech = .idle →
      (op.kind = .recalibrate ∨ (w.drive d).head = none → begins fun dr =>
        { dr with mech := .recalibrating, inward := false, recalSteps := 0, moveTimer := some cfg.stepRate }) ∧
      ∀ t, op.kind ≠ .recalibrate → (w.drive d).head = some t →
        (t = op.track → begins fun dr => { dr with mech := .waitChannel, moveTimer := none }) ∧
        (t ≠ op.track → begins fun dr =>
          { dr with mech := .stepping, inward := decide (t < op.track), moveTimer := some cfg.stepRate })) ∧
    ((w.drive d).mech = .faulted →
      ((w.drive d).vol ∈ [.absent, .foreign, .unreadable] → ∃ w', w.stepDrive cfg d = some w' ∧
        (w'.drive d).mech = .faulted ∧ (w'.drive d).queued = [] ∧ (w'.drive d).vol = (w.drive d).vol ∧
        ∀ x ∈ (w.drive d).queued, ∀ q e, x.origin = .request q → w.entry q = some e → e.drive = d → w'.entry q = none ∧
          ((w.desk e.desk).presence = .present → (w.drive d).queued = [x] → Work.Replied w q e .mediaError .none w')) ∧
      ∀ q e a name serial sides, (w.drive d).vol = .formatting → w.activeOf d = some (q, e, a) → w.entry q = some e →
        e.job = .format name serial sides → e.drive = d → (w.desk e.desk).presence = .present →
        ∃ w', w.stepDrive cfg d = some w' ∧ (w'.drive d).mech = .faulted ∧ (w'.drive d).queued = [] ∧
          (w'.drive d).vol = .unreadable ∧ Work.Replied w q e .mediaError .none w') ∧
    ((w.drive d).mech ∉ [.unloaded, .idle, .faulted] → w.stepDrive cfg d = none)) ∧
  (∀ (d : DriveId) (op : Op) (s : State), (s.work.drive d).current = some op → (s.work.drive d).runOn = false →
    let goes := fun (c : Instr) (f : Drive → Drive) =>
      exec c s = .next { s with work := settle s.cfg (s.work.updDrive d f) }
    let recalibrates := fun dr : Drive =>
      { dr with mech := .recalibrating, inward := false, recalSteps := 0, moveTimer := some s.cfg.stepRate }
    ((s.work.drive d).mech = .loading →
      (op.kind = .recalibrate ∨ (s.work.drive d).head = none → goes (.headLoadEnd d) recalibrates) ∧
      ∀ t, op.kind ≠ .recalibrate → (s.work.drive d).head = some t →
        (t = op.track → goes (.headLoadEnd d) fun dr => { dr with mech := .waitChannel, moveTimer := none }) ∧
        (t ≠ op.track → goes (.headLoadEnd d) fun dr =>
          { dr with mech := .stepping, inward := decide (t < op.track), moveTimer := some s.cfg.stepRate })) ∧
    ((s.work.drive d).mech = .stepping → ∀ t, (s.work.drive d).head = some t → t ≤ 76 → op.track ≤ 76 →
      (t < op.track → (s.work.drive d).inward = true → goes (.stepIntervalExpiry d) fun dr =>
        if t + 1 = op.track then { dr with head := some (t + 1), mech := .settling, moveTimer := some 15 }
        else { dr with head := some (t + 1), moveTimer := some s.cfg.stepRate }) ∧
      (op.track < t → (s.work.drive d).inward = false → goes (.stepIntervalExpiry d) fun dr =>
        if t - 1 = op.track then { dr with head := some (t - 1), mech := .settling, moveTimer := some 15 }
        else { dr with head := some (t - 1), moveTimer := some s.cfg.stepRate })) ∧
    ((s.work.drive d).mech = .settling → op.kind = .recalibrate →
      exec (.settleEnd d) s = .next { s with work := settle s.cfg (s.work.endOp d) }) ∧
    ((s.work.drive d).mech = .settling → op.kind ≠ .recalibrate → ∀ t, (s.work.drive d).head = some t →
      (t = op.track → goes (.settleEnd d) fun dr => { dr with mech := .waitChannel, moveTimer := none }) ∧
      (t ≠ op.track → goes (.settleEnd d) fun dr =>
        { dr with mech := .stepping, inward := decide (t < op.track), moveTimer := some s.cfg.stepRate }))) ∧
  (∀ (dr : Drive), (dr.mech ∈ [.loading, .stepping, .settling, .recalibrating] → dr.halt = { dr with runOn := true }) ∧
    (dr.mech ∈ [.waitChannel, .transferring] → dr.halt = { dr with mech := .idle, moveTimer := none }) ∧
    (dr.mech ∈ [.notReady, .unloaded, .idle, .faulted] → dr.halt = dr)) ∧
  (∀ (d : DriveId) (s : State), (s.work.drive d).runOn = true →
    let goes := fun (c : Instr) (f : Drive → Drive) =>
      exec c s = .next { s with work := settle s.cfg (s.work.updDrive d f) }
    ((s.work.drive d).mech = .loading → goes (.headLoadEnd d) fun dr =>
      { dr with mech := .idle, moveTimer := none, runOn := false }) ∧
    ((s.work.drive d).mech = .stepping → ∀ t, (s.work.drive d).head = some t → t ≤ 76 →
      goes (.stepIntervalExpiry d) fun dr => { dr with
        head := some (if dr.inward then min 76 (t + 1) else t - 1), mech := .settling, moveTimer := some 15 }) ∧
    ((s.work.drive d).mech = .settling → goes (.settleEnd d) fun dr =>
      { dr with mech := .idle, moveTimer := none, runOn := false }) ∧
    ∀ track0, (s.work.drive d).mech = .recalibrating → goes (.recalibrateStep d track0) fun dr =>
      { dr with mech := .idle, moveTimer := none, runOn := false, head := none }) ∧
  ∀ (d : DriveId) (s : State), (s.work.drive d).mech = .recalibrating → (s.work.drive d).runOn = false →
    (exec (.recalibrateStep d true) s = .next { s with work := settle s.cfg (s.work.updDrive d fun dr =>
      { dr with head := some 0, mech := .settling, moveTimer := some 15 }) }) ∧
    ((s.work.drive d).recalSteps < 80 → (s.work.drive d).inward = false →
      exec (.recalibrateStep d false) s = .next { s with work := settle s.cfg (s.work.updDrive d fun dr =>
        { dr with head := dr.head.map (· - 1), recalSteps := dr.recalSteps + 1,
                  moveTimer := some s.cfg.stepRate }) }) ∧
    (80 ≤ (s.work.drive d).recalSteps → ∃ w, exec (.recalibrateStep d false) s =
      .next { s with work := settle s.cfg w } ∧ (w.drive d).mech = .faulted ∧ (w.drive d).head = none ∧
        (w.drive d).ops = [] ∧ (w.drive d).appendWait = [])

/-! ### Transfers -/

/-- R152 to R155: an attempt that leaves nothing bad ends its operation: a READ_TRACK whose every bad sector was read, a
WRITE_SECTORS whose every bad sector reads back as written, a CATALOGUE_WRITE or LABEL_WRITE that reads back the new image, a
FORMAT_TRACK whose fifteen sectors read back empty. What comes at once follows. R161, R148: an operation that ends leaves its
queue, its drive is IDLE and the channel free, and its buffer has taken the result, and nothing else has changed, when it reports
to its origin with its outcome. R117, R130, R60, R73: the report of its READ_TRACK takes a READ on, or replies it MEDIA_ERROR
where a needed sector is unreadable and no CANCEL is noted, and takes a WRITE on, or makes its check-out LOST where the tail
sector is unreadable; that of a mount's goes to the mount. R134: that of a flush sends the request that waits for it to obtain a
buffer afresh, or, where it left sectors to relocate, to wait until they are placed, as the worked example of chapter 7 has it:
the model's reading (log 56). R36, R27: that of a catalogue write is the outcome of its FILE or KILL, and that of a label write
moves the additions written into the label, or makes the volume WRITE_FAULTED; one whose every attempt met a wrong track has no
class and is taken to have failed, the model's choice (log 20). R20 to R22: those of a FORMAT's operations count its tracks, take
their bad sectors into the new list, and end it. R157, R14, R16: a failure at once makes the volume WRITE_FAULTED or replies
MEDIA_ERROR, or ends a FORMAT; that a request of the drive is replied MEDIA_ERROR also where its only operation that failed is
its own eviction flush is the model's choice (log 41). -/
def Obligations.GoodAttemptEndsTheOperation : Prop :=
  (∀ (d : DriveId) (op : Op) (s : State), (s.work.drive d).mech = .transferring → (s.work.drive d).current = some op →
    let a := (s.work.drive d).attempt
    let ends := fun (c : Instr) (a' : Attempt) =>
      let ended := (s.work.updDrive d fun dr => { dr with attempt := a' }).endOp d
      exec c s = .next { s with work := settle s.cfg ended }
    (∀ content : Fin 15 → Chars, op.kind = .readTrack →
      ends (.readTrackAttemptEnd d false ((List.finRange 15).map fun k => .good (content k)))
        { a with bad := [], kinds := [], done := a.done ++ a.bad.map fun k => (k, content k) }) ∧
    (∀ content : Fin 15 → Chars, op.kind = .writeSectors → (∀ k ∈ a.bad, a.taken.lookup k = some (content k)) →
      ends (.writeSectorsAttemptEnd d false ((List.finRange 15).map fun k => .written (.good (content k))))
        { a with bad := [], kinds := [], done := a.done ++ a.bad.map fun k => (k, content k) }) ∧
    (op.kind = .catalogueWrite → ends (.catalogueWriteAttemptEnd d false (.written (.good a.image)))
      { a with lastClass := some .newImage, bad := [], kinds := [] }) ∧
    (op.kind = .labelWrite → ends (.labelWriteAttemptEnd d false (.written (.good a.image)))
      { a with lastClass := some .newImage, bad := [], kinds := [] }) ∧
    (op.kind = .formatTrack →
      ends (.formatTrackAttemptEnd d false (List.replicate 15 (.good (List.replicate 256 0))))
        { a with bad := [], kinds := [] })) ∧
  (∀ (d : DriveId) (op : Op) (w : Work), (w.drive d).current = some op →
    let a := (w.drive d).attempt
    ∃ w' : Work, w.endOp d = w'.report d ⟨op, if a.bad = [] then .completed else .completedWithFailures, a⟩ ∧
      (w'.drive d).mech = .idle ∧ (w'.drive d).moveTimer = none ∧ (w'.drive d).queued = (w.drive d).queued.drop 1 ∧
      w'.owner = (if w.owner = some d then none else w.owner) ∧ (w'.drive d).vol = (w.drive d).vol ∧
      (w'.drive d).media = (w.drive d).media ∧ (∀ c, c ≠ d → w'.drive c = w.drive c) ∧
      (∀ b, w'.buffer b =
        if op.buffer = some b ∧ op.kind = .readTrack then (w.fillEnd b a).buffer b
        else if op.buffer = some b ∧ op.kind = .writeSectors then (w.writeEnd b a).buffer b
        else w.buffer b) ∧
      w'.queue = w.queue ∧ w'.handles = w.handles ∧ w'.retired = w.retired ∧ w'.desks = w.desks ∧ w'.lines = w.lines) ∧
  (∀ (d : DriveId) (op : Op) (a : Attempt) (q : QSlot) (e : Entry) (act : Active) (o : OpOutcome) (w : Work),
    o = .completed ∨ o = .completedWithFailures → op.origin = .request q → w.entry q = some e → e.active = some act →
    let told := w.report d ⟨op, o, a⟩
    let placed := fun place => w.setEntry q (some { e with active := some { act with place := place } })
    (∀ b h offset count from_ p ps area, op.kind = .readTrack → op.buffer = some b → e.job = .read h offset count →
      act.progress = .read from_ (p :: ps) area →
      let needed := w.validPieces d ((p :: ps).takeWhile fun x => x.block / 15 == p.block / 15)
      (needed.isSome = true ∨ act.cancelNoted = true → told = placed (.holding b)) ∧
      (needed = none → act.cancelNoted = false → (w.desk e.desk).presence = .present →
        Work.Replied w q e .mediaError .none told ∧ told.handles = w.handles)) ∧
    (∀ b h hd st offset data block, op.kind = .readTrack → op.buffer = some b → e.job = .write h offset data →
      w.handle h = some hd → hd.staging = some st → (blocksOf st.extents)[st.length / 256]? = some block →
      let present := ∃ c x, w.sectorOf d (w.sides d) block = some (c, x) ∧ x.cell ≠ .absent
      (present → told = placed (.holding b)) ∧
      (¬ present → w.entryNaming h = some (q, e) → (w.desk e.desk).presence = .present →
        Work.Replied w q e .mediaError .none told ∧
        told.handle h = some { hd with state := .defunct .lost, pin := none, staging := none } ∧
        (∀ i, i ≠ h → told.handle i = w.handle i) ∧
        (told.desk hd.desk).notices = ((w.desk hd.desk).addNotice (.lost hd.drive [h])).notices)) ∧
    (∀ b, op.kind = .writeSectors → op.buffer = some b → (∀ name serial sides, e.job ≠ .format name serial sides) →
      told = if act.place ≠ .evicting then w
        else if (w.buffer b).pending = [] then placed .evicted else placed (.draining b)) ∧
    (∀ h, op.kind = .catalogueWrite → e.job = .file h ∨ (∃ slug, e.job = .kill slug) →
      told = w.catalogueOutcome q e a ∧
      (a.lastClass = some .oldImage → (w.desk e.desk).presence = .present →
        Work.Replied w q e .mediaError .none told ∧ told.handles = w.handles) ∧
      (a.lastClass = some .neither ∨ a.lastClass = some .unreadable → e.drive = d → (w.drive d).vol = .mounted →
        (told.drive d).vol = .writeFaulted ∧ told.entry q = none ∧ (told.desk e.desk).outstanding = none)) ∧
    (∀ h m, op.kind = .labelWrite → e.job = .file h → (w.drive d).media = some m →
      (a.lastClass = some .newImage → told.entry q = some { e with active := some { act with place := .labelDone } } ∧
        (told.drive d).media = some { m with
          label := { m.label with badBlocks := m.label.badBlocks ++ a.included },
          additions := m.additions.drop a.included.length }) ∧
      (a.lastClass ≠ some .newImage → (w.drive d).vol = .mounted → (told.drive d).vol = .writeFaulted)) ∧
    ∀ name serial sides p, e.job = .format name serial sides → act.progress = .format p → sides = 1 ∨ sides = 2 →
      (w.desk e.desk).presence = .present →
      let new := a.bad.map fun k => blockAt sides op.track op.side k.val
      let fails := a.bad ≠ [] ∧ (op.track < 2 ∨ 16 < p.bad.length + a.bad.length)
      let failed := fun code => (told.drive d).vol = .foreign ∧ Work.Replied w q e code .none told
      (op.kind = .formatTrack →
        (fails → failed .mediaError) ∧
        (¬ fails → act.cancelNoted = true → (p.ended + 1) % sides = 0 → failed .cancelled) ∧
        (¬ fails → act.cancelNoted = false ∨ (p.ended + 1) % sides ≠ 0 →
          ∃ p', told.entry q = some { e with active := some { act with progress := .format p' } } ∧
            p'.ended = p.ended + 1 ∧ p'.bad = p.bad ++ new ∧ p.queued ≤ p'.queued)) ∧
      (op.kind = .catalogueWrite ∨ op.kind = .labelWrite →
        (a.lastClass ≠ some .newImage → failed .mediaError) ∧
        ∀ queued, a.lastClass = some .newImage → p.records = some (queued, 29) →
          Work.Replied w q e .ok (.formatted p.bad.length) told ∧ (told.drive d).vol = .mounted ∧
            (told.drive d).media = some (freshMedia ⟨name, serial, sides, p.bad⟩ (Vector.replicate 116 .empty)))) ∧
  (∀ (d c : DriveId) (b : BufId) (op : Op) (a : Attempt) (o : OpOutcome) (w : Work),
    o = .completed ∨ o = .completedWithFailures →
    (op.kind = .readTrack → op.buffer = some b → op.origin = .mount c → w.report d ⟨op, o, a⟩ = w.mountRead c) ∧
    (op.kind = .writeSectors → op.origin = .idleFlush ∨ op.origin = .nobody → w.report d ⟨op, o, a⟩ = w)) ∧
  ∀ (d : DriveId) (op : Op) (a : Attempt) (q : QSlot) (e : Entry) (f : FailureKind) (w : Work),
    op.origin = .request q → w.entry q = some e → e.drive = d → (w.desk e.desk).presence = .present →
    let told := w.report d ⟨op, .failedAtOnce f, a⟩
    let isFormat := ∃ name serial sides, e.job = .format name serial sides
    let write := f = .writeProtected ∨ f = .writeFault
    (write → ¬ isFormat → (w.drive d).vol = .mounted → (told.drive d).vol = .writeFaulted) ∧
    (write → isFormat → (told.drive d).vol = .foreign ∧ Work.Replied w q e
      (if op.kind = .formatTrack ∧ f = .writeProtected then .writeProtected else .mediaError) .none told) ∧
    (¬ write → (w.drive d).vol ≠ .formatting → Work.Replied w q e .mediaError .none told ∧ told.handles = w.handles)

/-- R152 to R155: what a failed attempt leaves. A READ_TRACK keeps the sectors read, and a WRITE_SECTORS those written, and
read back as written where write verify is set, but none at a WRONG_TRACK; the others stay bad, each with its failure kind. A
CATALOGUE_WRITE or LABEL_WRITE that does not read back the new image has the class of its read-back, and after WRONG_TRACK
that of the attempt before (log 20). A FORMAT_TRACK has the sectors bad that do not read back empty, after WRONG_TRACK all of
them. R156, R150: a failed attempt below the retry limit is made again in place, or after WRONG_TRACK behind a recalibration
from an unknown position with the channel released; at the limit the final attempt follows a recalibration, after WRONG_TRACK
from an unknown position too, the model's choice (log 60); after the final attempt the operation ends, with the last failure
kind of each sector still bad (R161). What comes at once follows. R150, R151, R157: the free channel is granted to the first
requester after the last-granted drive, which is then owner and last granted and TRANSFERRING on its operation's side; at its
first grant an operation takes what it is to read or write, a WRITE_SECTORS its DIRTY set with the marks cleared; at a later
one nothing new. One of a writing kind whose protect line is asserted fails at once with WRITE_PROTECTED, before it does
anything: the line is looked at before the set is taken (log 19). R35: a CATALOGUE_WRITE takes the image of its sector, with
the pending entry in its slot, for a FILE composed of its check-out at that moment and EMPTY for a KILL, and the other slots
as they stand, a RESERVED one as EMPTY and a DAMAGED one as its stored bytes with the damaged mark; the old image has the
slot as it stands. R27: a LABEL_WRITE of a FILE or of housekeeping takes the label copy with the pending additions behind it,
and with none pending has completed; R21: one of a FORMAT takes the new label. -/
def Obligations.FailedAttemptIsRetried : Prop :=
  (∀ (d : DriveId) (op : Op) (s : State), (s.work.drive d).mech = .transferring → (s.work.drive d).current = some op →
    s.work.owner = some d →
    let was := (s.work.drive d).attempt
    let recalibrates := fun (wrongTrack : Bool) (a : Attempt) =>
      { s.work with owner := none }.updDrive d fun dr =>
        { dr with attempt := a, mech := .recalibrating, inward := false, recalSteps := 0,
                  moveTimer := some s.cfg.stepRate, head := if wrongTrack then none else dr.head }
    let fails := fun (c : Instr) (wrongTrack : Bool) (a : Attempt) =>
      let becomes := fun w : Work => exec c s = .next { s with work := settle s.cfg w }
      (a.final = false → a.retries < s.cfg.retryLimit → wrongTrack = false → becomes (s.work.updDrive d fun dr =>
        { dr with attempt := { a with retries := a.retries + 1, made := a.made + 1, pulses := 0 } })) ∧
      (a.final = false → a.retries < s.cfg.retryLimit → wrongTrack = true →
        becomes (recalibrates true { a with retries := a.retries + 1 })) ∧
      (a.final = false → s.cfg.retryLimit ≤ a.retries → becomes (recalibrates wrongTrack { a with final := true })) ∧
      (a.final = true → becomes ((s.work.updDrive d fun dr => { dr with attempt := a }).endOp d))
    (∀ (wrongTrack : Bool) (sectors : List SectorRead), op.kind = .readTrack →
      let content := fun k : Fin 15 => match sectors[k.val]? with
        | some (.good c) => some c
        | _ => none
      let bad := was.bad.filter fun k => (content k).isNone
      bad ≠ [] → fails (.readTrackAttemptEnd d wrongTrack sectors) wrongTrack { was with
        done := was.done ++ was.bad.filterMap (fun k => (content k).map fun c => (k, c)), bad := bad,
        kinds := bad.map fun k => (k, if sectors[k.val]? = some .crcError then .crcError
          else if wrongTrack then .wrongTrack else .sectorNotFound) }) ∧
    (∀ sectors : List SectorWrite, op.kind = .writeSectors →
      (was.bad ≠ [] → fails (.writeSectorsAttemptEnd d true sectors) true
        { was with kinds := was.bad.map fun k => (k, .wrongTrack) }) ∧
      let well := fun k : Fin 15 => match sectors[k.val]?, was.taken.lookup k with
        | some (.written (.good c)), some content => !was.verify || c == content
        | some (.written _), _ => !was.verify
        | _, _ => false
      let bad := was.bad.filter fun k => !well k
      bad ≠ [] → fails (.writeSectorsAttemptEnd d false sectors) false { was with
        done := was.done ++ (was.bad.filter well).filterMap (fun k => (was.taken.lookup k).map fun c => (k, c)), bad := bad,
        kinds := bad.map fun k => (k, match sectors[k.val]? with
          | some (.written _) => .verifyMismatch
          | _ => .sectorNotFound) }) ∧
    (∀ r : SectorWrite, op.kind = .catalogueWrite ∨ op.kind = .labelWrite →
      let ends := fun wrongTrack => if op.kind = .catalogueWrite then Instr.catalogueWriteAttemptEnd d wrongTrack r
        else .labelWriteAttemptEnd d wrongTrack r
      let left := fun (c : ReadClass) (kind : FailureKind) => fails (ends false) false
        { was with lastClass := some c, kinds := was.bad.map fun k => (k, kind) }
      fails (ends true) true { was with kinds := was.bad.map fun k => (k, .wrongTrack) } ∧
      (∀ c, r = .written (.good c) → c ≠ was.image →
        (was.oldImage = some c → left .oldImage .verifyMismatch) ∧
        (was.oldImage ≠ some c → left .neither .verifyMismatch)) ∧
      (r = .written .crcError → left .unreadable .crcError) ∧
      (r = .written .notFound ∨ r = .notFound → left .unreadable .sectorNotFound)) ∧
    (∀ (wrongTrack : Bool) (sectors : List SectorRead), op.kind = .formatTrack →
      let bad := (List.finRange 15).filter fun k => wrongTrack || sectors[k.val]? != some (.good (List.replicate 256 0))
      bad ≠ [] → fails (.formatTrackAttemptEnd d wrongTrack sectors) wrongTrack { was with
        bad := bad, kinds := bad.map fun k => (k, if wrongTrack then .wrongTrack else .verifyMismatch) })) ∧
  ∀ (cfg : Cfg) (w : Work),
    let asks := fun c : DriveId => (w.drive c).mech = .waitChannel ∧
      (w.restarting = false ∨ ∃ op, (w.drive c).current = some op ∧ op.transferring = true)
    let turn := fun c : DriveId => (c.val + 3 - w.lastGranted.val) % 4
    (w.owner ≠ none ∨ (∀ c, ¬ asks c) → w.stepChannel cfg = none) ∧
    ∀ (d : DriveId) (op : Op) (rest : List Op), w.owner = none → asks d → (∀ c, asks c → turn d ≤ turn c) →
      (w.drive d).ops = op :: rest →
      let granted := fun (a : Attempt) => { w with owner := some d, lastGranted := d }.updDrive d fun dr =>
        { dr with mech := .transferring, moveTimer := none, sideLine := op.side,
                  ops := { op with transferring := true } :: rest, attempt := a }
      let grants := fun a => w.stepChannel cfg = some (granted a)
      let was := (w.drive d).attempt
      let writes := op.kind = .writeSectors ∨ op.kind = .catalogueWrite ∨ op.kind = .labelWrite ∨ op.kind = .formatTrack
      (¬ (writes ∧ (w.drive d).protectLine = true) →
        (op.transferring = true → grants { was with made := was.made + 1, pulses := 0 }) ∧
        (op.transferring = false → op.kind = .readTrack ∨ op.kind = .formatTrack →
          grants { Attempt.none with made := 1, bad := List.finRange 15 }) ∧
        (∀ c, op.transferring = false → op.kind = .catalogueWrite → op.image = .empty c →
          grants { Attempt.none with made := 1, bad := [Fin.ofNat 15 (catalogueSector c)], image := List.replicate 256 0 }) ∧
        (∀ c slot m q e, op.transferring = false → op.kind = .catalogueWrite → op.image = .entry c slot →
          (w.drive d).media = some m → op.origin = .request q → w.entry q = some e →
          (∀ (k : Fin 4) (slug : Option Chars), m.catalogue[sectorSlot c k] ≠ .damaged slug none ∧
            ∀ stored, m.catalogue[sectorSlot c k] = .damaged slug (some stored) → stored.length = 64) →
          let shown := fun i : CatSlot => match m.catalogue[i] with
            | .empty | .reserved _ _ | .damaged _ none => List.replicate 64 0
            | .filed story _ => filedEntry story
            | .damaged _ (some stored) => stored.set 13 0x44
          let image := fun bytes : Chars => (List.finRange 4).flatMap fun k =>
            if sectorSlot c k = slot then bytes else shown (sectorSlot c k)
          let takes := fun (entry : Option Story) (bytes : Chars) =>
            grants { Attempt.none with made := 1, bad := [Fin.ofNat 15 (catalogueSector c)], entry, image := image bytes,
                                       oldImage := some (image (shown slot)) }
          (∀ h hd st slug basket, e.job = .file h → w.handle h = some hd → hd.drive = d → hd.slot = slot →
            hd.staging = some st →
            (∃ story k, m.catalogue[slot] = .filed story k ∧ story.slug = slug ∧ story.basket = basket) ∨
              m.catalogue[slot] = .reserved slug basket →
            let minute := match cfg.clock with | .unset => none | .running now => some now
            let entry : Story := ⟨slug, basket, (match hd.base with | some v => v + 1 | none => 1), st.length, hd.desk, minute,
              st.extents⟩
            takes (some entry) (filedEntry entry)) ∧
          ∀ slug, e.job = .kill slug → takes none (List.replicate 64 0)) ∧
        (∀ q e a name serial sides p, op.transferring = false → op.kind = .labelWrite → op.origin = .request q →
          w.entry q = some e → e.job = .format name serial sides → e.active = some a → a.progress = .format p →
          grants { Attempt.none with made := 1, bad := [0], image := labelImage ⟨name, serial, sides, p.bad⟩ }) ∧
        (∀ m, op.transferring = false → op.kind = .labelWrite → (w.drive d).media = some m →
          op.origin = .labelWrite ∨ (∃ q e h, op.origin = .request q ∧ w.entry q = some e ∧ e.job = .file h) →
          (m.additions ≠ [] → grants { Attempt.none with
            made := 1, bad := [0], included := m.additions, oldImage := some (labelImage m.label),
            image := labelImage { m.label with badBlocks := m.label.badBlocks ++ m.additions } }) ∧
          (m.additions = [] → ∃ w', w.stepChannel cfg = some w' ∧ w'.owner = none ∧ w'.lastGranted = d ∧
            (w'.drive d).mech = .idle ∧ (w'.drive d).queued = rest ++ (w.drive d).appendWait ∧
            (w'.drive d).media = some m ∧ (w'.drive d).vol = (w.drive d).vol ∧ (∀ c, c ≠ d → w'.drive c = w.drive c) ∧
            w'.buffers = w.buffers ∧ w'.handles = w.handles ∧ w'.lines = w.lines ∧ w'.desks = w.desks ∧
            (op.origin = .labelWrite → w'.queue = w.queue) ∧
            ∀ q e a, op.origin = .request q → w.entry q = some e → e.active = some a →
              w'.entry q = some { e with active := some { a with place := .labelDone } })) ∧
        ∀ b, op.transferring = false → op.kind = .writeSectors → op.buffer = some b → (w.buffer b).dirtySet ≠ [] →
          let taken := (List.finRange 15).filterMap fun k => match ((w.buffer b).sectors[k]).cell with
            | .dirty content => some (k, content)
            | .absent | .valid _ => none
          ∃ w' : Work, w.stepChannel cfg = some w' ∧ w'.owner = some d ∧ w'.lastGranted = d ∧
            w'.drive d = (granted { Attempt.none with
              made := 1, bad := taken.map (·.1), taken := taken, verify := cfg.writeVerify }).drive d ∧
            (∀ k : Fin 15, ((w'.buffer b).sectors[k]).cell = ((w.buffer b).sectors[k]).cell ∧
              (((w.buffer b).sectors[k]).cell.isDirty = true → ((w'.buffer b).sectors[k]).mark = false)) ∧
            (∀ c, c ≠ b → w'.buffer c = w.buffer c) ∧ (∀ c, c ≠ d → w'.drive c = w.drive c)) ∧
      (writes → (w.drive d).protectLine = true →
        ∃ (w' : Work) (op' : Op) (a : Attempt), w.stepChannel cfg = some (w'.report d ⟨op', .failedAtOnce .writeProtected, a⟩) ∧
          op'.kind = op.kind ∧ op'.origin = op.origin ∧ op'.buffer = op.buffer ∧ (w'.drive d).mech = .idle ∧
          (w'.drive d).queued = rest ++ (w.drive d).appendWait ∧ w'.owner = none ∧ w'.lastGranted = d ∧
          (∀ b k, ((w'.buffer b).sectors[(k : Fin 15)]).cell = ((w.buffer b).sectors[k]).cell) ∧ w'.handles = w.handles ∧
          w'.queue = w.queue)

/-- R129, R133, R124: at the end of a READ_TRACK a sector that was read is VALID unless it is DIRTY, and one that was not
keeps its state; at the end of a WRITE_SECTORS a DIRTY sector that was written and not marked is VALID, every other stays, and
the marks are clear. A sector of the set that is DIRTY and not marked, was not written and belongs to a STAGED block is put on the
relocations pending list, in ascending order, and no other is; the buffer is FLUSHING while the list is not empty, and otherwise
READY. One that nobody holds and that holds nothing is FREE. -/
def Obligations.BufferTakesTheResult : Prop :=
  ∀ (w : Work) (b : BufId) (a : Attempt),
    ((w.buffer b).heldBy ≠ none ∨ (∃ k : Fin 15, ((w.buffer b).sectors[k]).cell ≠ .absent ∨ a.done.lookup k ≠ none) →
      ((w.fillEnd b a).buffer b).state = .ready ∧ ∀ k : Fin 15,
        let x := (w.buffer b).sectors[k]
        ((w.fillEnd b a).buffer b).sectors[k] = (match x.cell, a.done.lookup k with
          | .dirty _, _ => x
          | _, some content => ⟨.valid content, x.mark⟩
          | _, none => x)) ∧
    ((w.buffer b).heldBy ≠ none ∨ (∃ k : Fin 15, ((w.buffer b).sectors[k]).cell ≠ .absent) →
      (((w.writeEnd b a).buffer b).state = if ((w.writeEnd b a).buffer b).pending = [] then .ready else .flushing) ∧
      ((w.writeEnd b a).buffer b).pending.Pairwise (· < ·) ∧
      (∀ k : Fin 15, k ∈ ((w.writeEnd b a).buffer b).pending ↔
        (∃ content, (k, content) ∈ a.taken) ∧ a.done.lookup k = none ∧
          (∃ content, (w.buffer b).sectors[k] = ⟨.dirty content, false⟩) ∧
          ∃ key m, (w.buffer b).key = some key ∧ (w.drive key.drive).media = some m ∧
            cellState m.cells (blockAt m.label.sides key.track key.side k.val) = .staged) ∧
      ∀ k : Fin 15, ((w.writeEnd b a).buffer b).sectors[k] = (match ((w.buffer b).sectors[k]).cell with
          | .dirty content =>
            if (a.done.lookup k).isSome = true ∧ ((w.buffer b).sectors[k]).mark = false then ⟨.valid content, false⟩
            else ⟨.dirty content, false⟩
          | c => ⟨c, false⟩)) ∧
    ((w.buffer b).heldBy = none → (∀ k : Fin 15, ((w.buffer b).sectors[k]).cell = .absent ∧ a.done.lookup k = none) →
      (w.fillEnd b a).buffer b = Buffer.powerOn)

/-- R36, R37, R65: a FILE whose catalogue write reads back the new image commits: its slot is FILED with the pending entry and
without a kill mark, its handle is freed, and it is replied OK with the new version, the previous version and the length. A new
story has no version before it; over an existing version the superseded version is disposed of, then the FILE is replied. R41: a
KILL whose catalogue write does so leaves its slot EMPTY, disposes of the version, and is replied OK with the slug and the
version. R66, R75: a version that leaves its slot, by its readers, the OPEN READ handles whose pin source is CATALOGUE: without a
length their pin source is EMPTY and no block changes; without readers its blocks are FREE; with both and a record free, the
lowest one takes the drive, the length, the extents and the number of readers, their pin source is that record and the blocks are
RETIRED; with every record in use the blocks are FREE and each reader is DEFUNCT with cause SUPERSEDED, and the queued READ that
names it ends. Each reader's desk has one notice for it, withdrawn in the last case alone, in ascending order of handle. The
replies of those READs go before the reply of the FILE or KILL, the model's choice (log 10). -/
def Obligations.CatalogueWriteCommitsTheFile : Prop :=
  (∀ (d : DriveId) (q : QSlot) (e : Entry) (act : Active) (h : HandleIx) (hd : Handle) (m : Media) (slug : Chars)
    (basket : Nat) (st : Story) (a : Attempt) (w : Work), w.entry q = some e → e.job = .file h → e.active = some act →
    e.drive = d → w.handle h = some hd → hd.drive = d → (w.drive d).media = some m →
    m.catalogue[hd.slot] = .reserved slug basket → hd.base = none → a.lastClass = some .newImage →
    a.entry = some st → (w.desk e.desk).presence = .present →
    (w.catalogueOutcome q e a).entry q = none ∧ (w.catalogueOutcome q e a).handle h = none ∧
      (∀ i, i ≠ h → (w.catalogueOutcome q e a).handle i = w.handle i) ∧
      ((w.catalogueOutcome q e a).drive d).media =
        some (({ m with catalogue := m.catalogue.set hd.slot (.filed st none) }).mark (blocksOf st.extents) .filed) ∧
      ((w.catalogueOutcome q e a).desk e.desk).outstanding = none ∧
      (w.catalogueOutcome q e a).line (lineOf e.desk) =
        (w.withReply e.desk ⟨some .file, e.tag, .ok, .filed st.version 0 st.length⟩).line (lineOf e.desk)) ∧
  (∀ (d : DriveId) (q : QSlot) (e : Entry) (m : Media) (old : Story) (a : Attempt) (w : Work), w.entry q = some e →
    e.drive = d → (w.drive d).media = some m → a.lastClass = some .newImage → (w.desk e.desk).presence = .present →
    let committed := w.catalogueOutcome q e a
    let disposedBy := fun w' : Work => committed.retired = w'.retired ∧
      (committed.drive d).media = (w'.drive d).media ∧ ∀ k, (committed.desk k).notices = (w'.desk k).notices
    (∀ h hd kill st, e.job = .file h → w.handle h = some hd → hd.mode = .edit → hd.drive = d →
      m.catalogue[hd.slot] = .filed old kill → a.entry = some st →
      let filed := w.updMedia d fun x => ({ x with catalogue := x.catalogue.set hd.slot (.filed st none) }).mark
        (blocksOf st.extents) .filed
      let w' := filed.dispose d old (w.readersOf d hd.slot) fun i b => .refiled i st.version b
      disposedBy w' ∧ Work.Replied w' q e .ok (.filed st.version (hd.base.getD 0) st.length) committed ∧
        committed.handle h = none ∧ ∀ i, i ≠ h → committed.handle i = w'.handle i) ∧
    ∀ slug i kill, e.job = .kill slug → m.lookup slug = .filed i old kill →
      (∀ j st x, j ≠ i → m.catalogue[j] = .filed st x → st.slug ≠ slug) →
      let emptied := w.updMedia d fun x => { x with catalogue := x.catalogue.set i .empty }
      let w' := emptied.dispose d old (w.readersOf d i) fun j b => .killed j b
      disposedBy w' ∧ Work.Replied w' q e .ok (.killed slug old.version) committed ∧ committed.handles = w'.handles) ∧
  ∀ (d : DriveId) (i : CatSlot) (old : Story) (m : Media) (n : HandleIx → Bool → Notice) (w : Work),
    (w.drive d).media = some m →
    let readers := w.readersOf d i
    let w' := w.dispose d old readers n
    let media := fun x : Media => (w'.drive d).media = some x
    let told := fun withdrawn => ∀ k, (w'.desk k).notices =
      ((readers.filter fun j => (w.handle j).any (·.desk == k)).foldl (fun x j => x.addNotice (n j withdrawn))
        (w.desk k)).notices
    let pinned := fun source => ∀ j, w'.handle j = if j ∈ readers then
        (w.handle j).map fun x => { x with pin := x.pin.map fun p => { p with source := source } }
      else w.handle j
    (∀ j, j ∈ readers ↔ ∃ x p, w.handle j = some x ∧ x.mode = .read ∧ x.state = .live ∧ x.drive = d ∧ x.slot = i ∧
      x.pin = some p ∧ p.source = .catalogue) ∧
    (old.length = 0 → media m ∧ pinned .empty ∧ told false ∧ w'.retired = w.retired) ∧
    (old.length ≠ 0 → readers = [] → media (m.mark (blocksOf old.extents) .free) ∧ w'.handles = w.handles ∧
      w'.desks = w.desks ∧ w'.retired = w.retired) ∧
    (∀ r, old.length ≠ 0 → readers ≠ [] → w.record r = none → (∀ c, c < r → w.record c ≠ none) →
      media (m.mark (blocksOf old.extents) .retired) ∧ pinned (.record r) ∧ told false ∧
        w'.record r = some ⟨d, old.length, old.extents, readers.length⟩ ∧ ∀ c, c ≠ r → w'.record c = w.record c) ∧
    (old.length ≠ 0 → readers ≠ [] → (∀ r, w.record r ≠ none) →
      media (m.mark (blocksOf old.extents) .free) ∧ told true ∧ w'.retired = w.retired ∧
        (∀ j, w'.handle j = if j ∈ readers then
            (w.handle j).map fun x => { x with state := .defunct .superseded, pin := none, staging := none }
          else w.handle j) ∧
        ∀ j q e, j ∈ readers → w.entryNaming j = some (q, e) → w'.entry q = none)

/-- R157, R16, R17: a write fault in the write pass of a flush or label write of housekeeping makes a MOUNTED volume
WRITE_FAULTED; the operation is gone, and every check-out on the drive is DEFUNCT with cause LOST. What comes at once follows. On
a drive that is in no write pass the fault line does nothing. That the command tells whether the transfer reads back, and that
the third index pulse of an attempt, or the second of a FORMAT_TRACK's, shows the write pass to be over, are the model's choice
(log 32). -/
def Obligations.WriteFaultFaultsTheVolume : Prop :=
  (∀ (d : DriveId) (verifying : Bool) (op : Op) (s : State),
    (s.work.drive d).mech = .transferring → (s.work.drive d).current = some op →
    op.kind = .writeSectors ∨ op.kind = .labelWrite → op.origin = .idleFlush ∨ op.origin = .labelWrite →
    verifying = false ∨ (op.kind = .writeSectors ∧ (s.work.drive d).attempt.verify = false) →
    (s.work.drive d).attempt.pulses < 3 → (s.work.drive d).vol = .mounted →
    ∃ w, exec (.writeFaultLine ⟨d, verifying⟩) s = .next { s with work := settle s.cfg w } ∧ (w.drive d).vol = .writeFaulted ∧
      w.owner ≠ some d ∧ (∀ x ∈ (w.drive d).queued, x.kind = .readTrack ∨ x.kind = .recalibrate) ∧
      (∀ h hd, s.work.handle h = some hd → hd.drive = d → hd.isCheckOut = true →
        w.handle h = some { hd with state := .defunct .lost, pin := none, staging := none }) ∧
      (∀ h hd, s.work.handle h = some hd → hd.drive ≠ d ∨ hd.mode = .read → (w.handle h).map (·.state) = some hd.state) ∧
      ∀ q e hx o x, s.work.entry q = some e → e.drive = d → e.job = .write hx o x → w.entry q = none) ∧
  ∀ (d : DriveId) (verifying : Bool) (s : State),
    (s.work.drive d).mech ≠ .transferring ∨ (∀ op, (s.work.drive d).current = some op →
      op.kind = .readTrack ∨ op.kind = .recalibrate ∨ 3 ≤ (s.work.drive d).attempt.pulses ∨
        (op.kind = .formatTrack ∧ 2 ≤ (s.work.drive d).attempt.pulses) ∨
        (verifying = true ∧ (op.kind = .writeSectors → (s.work.drive d).attempt.verify = true))) →
    exec (.writeFaultLine ⟨d, verifying⟩) s = .next s

/-! ### The pool -/

/-- R128, R134: the five steps by which a party obtains a buffer for a track-side: one that is not FREE and holds it, in whatever
state; the least recent FREE one; the least recently used one that is READY, not held and clean; of the least recently used one
that is READY and not held an eviction flush, with the party as its origin; nothing. A request takes hold of what it obtains, a
mount also queues its READ_TRACK, and either leaves the wait list; one whose flush was started leaves it too; one that gets
nothing joins it, once. R126: a buffer that is taken hold of moves to the most recent end of the order of use, one that becomes
FREE to the least recent end, and a flush or a fill moves none. R128: a service of the pool's empty wait list serves nobody; a
mount that alone waits on it while a buffer is FREE and none holds its track-side takes the least recent FREE buffer, holds it
and queues its READ_TRACK, and leaves the list. What comes at once follows. A fill or a flush that ends, which one that leaves
sectors to relocate has not (logs 40, 56), and a buffer let go, leave the pool its wait list to take; a request that asks for a
buffer before the pool has taken it joins the list behind those that wait, and takes no buffer (log 40). -/
def Obligations.WaitersAreServed : Prop :=
  (∀ (p : Party) (key : TrackKey) (w : Work),
    let free := fun b => (w.buffer b).state = .free
    let unheld := fun b => (w.buffer b).state = .ready ∧ (w.buffer b).heldBy = none
    let clean := fun b => unheld b ∧ (w.buffer b).pending = [] ∧
      ∀ k : Fin 15, ((w.buffer b).sectors[k]).cell.isDirty = false
    let present := fun b => (w.buffer b).state ≠ .free ∧ (w.buffer b).key = some key
    let leastRecent := fun (ok : BufId → Prop) b => ∃ older newer, w.lru = older ++ b :: newer ∧ ok b ∧ ∀ c ∈ older, ¬ ok c
    let none_ := fun ok : BufId → Prop => ∀ c ∈ w.lru, ¬ ok c
    let given := fun b => w.updBuffer b fun _ => { Buffer.powerOn with state := .ready, key := some key }
    let origin : Origin := match p with
      | .request q => .request q
      | .mount d => .mount d
      | .relocation b => .relocation b
    let w' := w.askNow p key
    let left := w'.waitList = w.waitList.filter (· != p)
    let stands := fun (atRequest : Place) (atMount : MountPlace) (atReloc : RelocPlace) => match p with
      | .request q => ∀ e a, w.entry q = some e → e.active = some a →
          w'.entry q = some { e with active := some { a with place := atRequest } }
      | .mount d => ∀ m, (w.drive d).mount = some m → (w'.drive d).mount = some { m with place := atMount }
      | .relocation b => ∀ r, (w.buffer b).reloc = some r → (w'.buffer b).reloc = some { r with place := atReloc }
    (∀ b, present b → (∀ c, present c → c = b) → w.obtain p key = (w, .got b)) ∧
    (∀ b, (∀ c, ¬ present c) → leastRecent free b → w.obtain p key = (given b, .got b)) ∧
    (∀ b, (∀ c, ¬ present c) → none_ free → leastRecent clean b → w.obtain p key = (given b, .got b)) ∧
    (∀ b old, (∀ c, ¬ present c) → none_ free → none_ clean → leastRecent unheld b → (w.buffer b).key = some old →
      w.obtain p key = ((w.updBuffer b fun x => { x with state := .flushing }).append old.drive
          ⟨.writeSectors, old.track, old.side, some b, .none, origin, false⟩, .evicting) ∧
        left ∧ stands .evicting .evicting .evicting) ∧
    ((∀ c, ¬ present c) → none_ free → none_ unheld → w.obtain p key = (w, .none) ∧ w'.buffers.map (·.state) =
        w.buffers.map (·.state) ∧ w'.waitList = (if p ∈ w.waitList then w.waitList else w.waitList ++ [p]) ∧
      stands .waiting .waiting .waiting) ∧
    (w.poolDue = false ∨ w.waitList = [] → w.ask p key = w') ∧
    ∀ w1 b, w.obtain p key = (w1, .got b) →
      (∀ q e a, p = .request q → w.entry q = some e → e.active = some a →
        left ∧ w'.entry q = some { e with active := some { a with place := .holding b } } ∧
          w'.buffer b = { w1.buffer b with heldBy := some (.request q) } ∧ (∀ c, c ≠ b → w'.buffer c = w.buffer c) ∧
          w'.lru = w.lru.erase b ++ [b] ∧ w'.drives = w.drives ∧ w'.handles = w.handles) ∧
      ∀ d m, p = .mount d → (w.drive d).mount = some m →
        left ∧ (w'.drive d).mount = some { m with place := .track0, buffer := some b } ∧
          w'.buffer b = { w1.buffer b with heldBy := some (.mount d), state := .filling } ∧
          (∀ c, c ≠ b → w'.buffer c = w.buffer c) ∧ w'.lru = w.lru.erase b ++ [b] ∧
          ⟨.readTrack, key.track, key.side, some b, .none, .mount d, false⟩ ∈ (w'.drive key.drive).queued) ∧
  (∀ (b : BufId) (h : Holder) (o : Origin) (a : Attempt) (w : Work),
    (w.hold b h).lru = w.lru.erase b ++ [b] ∧ (w.freeBuffer b).lru = b :: w.lru.erase b ∧
      (w.flush b o).lru = w.lru ∧ (w.fill b o).lru = w.lru ∧
      (((w.fillEnd b a).buffer b).state ≠ .free → (w.fillEnd b a).lru = w.lru) ∧
      (((w.writeEnd b a).buffer b).state ≠ .free → (w.writeEnd b a).lru = w.lru)) ∧
  (∀ s : State,
    (s.work.waitList = [] → exec .waitListService s = .next { s with work := settle s.cfg s.work }) ∧
    ∀ d b mount, s.work.waitList = [.mount d] → (s.work.drive d).mount = some mount →
      s.work.bufferOf ⟨d, 0, 0⟩ = none →
      s.work.lru.find? (fun x => (s.work.buffer x).state == .free) = some b → (s.work.drive d).ops.length < 16 →
      ∃ w, exec .waitListService s = .next { s with work := settle s.cfg w } ∧ w.waitList = [] ∧ w.poolDue = false ∧
        (w.buffer b).state = .filling ∧ (w.buffer b).key = some ⟨d, 0, 0⟩ ∧ (w.buffer b).heldBy = some (.mount d) ∧
        (∀ c, c ≠ b → w.buffer c = s.work.buffer c) ∧
        (w.drive d).ops = (s.work.drive d).ops ++ [⟨.readTrack, 0, 0, some b, .none, .mount d, false⟩] ∧
        (w.drive d).mount = some { mount with place := .track0, buffer := some b } ∧
        (∀ c, c ≠ d → w.drive c = s.work.drive c) ∧ w.handles = s.work.handles ∧ w.lines = s.work.lines) ∧
  ∀ w : Work, w.waitList ≠ [] →
    (∀ b a, (w.fillEnd b a).poolDue = true ∧ (w.writeEnd b a).poolDue =
      if ((w.writeEnd b a).buffer b).pending = [] then true else w.poolDue) ∧
    (∀ b h, (w.buffer b).heldBy = some h → (w.letGo h).poolDue = true ∧ (w.letGo h).waitList = w.waitList) ∧
    ∀ q key, w.poolDue = true → .request q ∉ w.waitList →
      (w.ask (.request q) key).waitList = w.waitList ++ [.request q] ∧ (w.ask (.request q) key).buffers = w.buffers ∧
        (w.ask (.request q) key).drives = w.drives

/-- R136, R137: the relocation of a failed sector for which no block is FREE, or whose list would pass eight extents,
makes its check-out DEFUNCT with cause LOST and tells the holder; with a FREE block and a FREE buffer, its content moves to the replacement's sector, which is DIRTY, the
failed block is BAD, and the staging extent list takes the replacement. One that cannot be made under an ACTIVE FILE of the
check-out also replies it MEDIA_ERROR and queues no label write of its own: as the FILE ends one is queued where additions
are pending, and none where the label list is full and none is pending. What comes at once follows. -/
def Obligations.RelocationMovesOrLoses : Prop :=
  ∀ (b : BufId) (key : TrackKey) (k : Fin 15) (rest : List (Fin 15)) (h : HandleIx) (hd : Handle) (st : Staging)
    (m : Media) (s : State), (s.work.buffer b).key = some key → (s.work.buffer b).pending = k :: rest →
    (s.work.buffer b).reloc = none → (s.work.drive key.drive).media = some m →
    s.work.handle h = some hd → hd.staging = some st → hd.drive = key.drive →
    let old := blockAt m.label.sides key.track key.side k.val
    old ∈ blocksOf st.extents →
    (∀ i x y, i ≠ h → s.work.handle i = some x → x.drive = key.drive → x.staging = some y → old ∉ blocksOf y.extents) →
    let cannot := m.allocate = none ∨ ∃ r m', m.allocate = some (r, m') ∧ 8 < (replaceBlock st.extents old r).length
    (∀ q e a f, cannot → s.work.entryNaming h = some (q, e) → s.work.entry q = some e → e.active = some a →
      e.job = .file f → e.drive = key.drive → (s.work.desk e.desk).presence = .present →
      let labels := fun w : Work => (w.drive key.drive).queued.countP (·.kind == .labelWrite)
      ∃ w, exec (.relocation b) s = .next { s with work := settle s.cfg w } ∧
        w.handle h = some { hd with state := .defunct .lost, pin := none, staging := none } ∧
        (∀ i, i ≠ h → w.handle i = s.work.handle i) ∧ Work.Replied s.work q e .mediaError .none w ∧
        (m.additions = [] → 16 ≤ m.label.badBlocks.length → labels w ≤ labels s.work) ∧
        ((s.work.drive key.drive).vol = .mounted →
          m.additions ≠ [] ∨ (s.work.FailingBlock key.drive m.label.sides old ∧ m.label.badBlocks.length < 16 ∧
            s.work.KeysDistinct) →
          ∃ op ∈ (w.drive key.drive).queued, op.kind = .labelWrite ∧ op.transferring = false)) ∧
    (s.work.entryNaming h = none → (cannot →
      ∃ w, exec (.relocation b) s = .next { s with work := settle s.cfg w } ∧
        w.handle h = some { hd with state := .defunct .lost, pin := none, staging := none } ∧
        (w.desk hd.desk).notices = ((s.work.desk hd.desk).addNotice (.lost hd.drive [h])).notices ∧
        ∀ i, i ≠ h → w.handle i = s.work.handle i) ∧
    ∀ c content r m', m.allocate = some (r, m') → (replaceBlock st.extents old r).length ≤ 8 →
      (s.work.buffer b).sectors[k].cell = .dirty content → (s.work.buffer b).state = .flushing →
      s.work.bufferOf (keyOf key.drive m.label.sides r) = none →
      s.work.lru.find? (fun x => (s.work.buffer x).state == .free) = some c →
      s.work.poolDue = false ∨ s.work.waitList = [] →
      ∃ w, exec (.relocation b) s = .next { s with work := settle s.cfg w } ∧
        (w.buffer c).key = some (keyOf key.drive m.label.sides r) ∧ (w.buffer c).state = .ready ∧
        (w.buffer c).sectors[blockSector r].cell = .dirty content ∧
        w.handle h = some { hd with staging := some { st with extents := replaceBlock st.extents old r } } ∧
        (∀ i, i ≠ h → w.handle i = s.work.handle i) ∧
        ((w.drive key.drive).media.map fun x => cellState x.cells old) = some .bad ∧
        w.desks = s.work.desks ∧ w.lines = s.work.lines ∧ w.queue = s.work.queue)

/-- R160, R138: when the head-unload timer expires, unload pending is set and, where no READY buffer of the drive is DIRTY,
nothing is flushed; each that is becomes FLUSHING with a WRITE_SECTORS of housekeeping queued. What comes at once
follows. R160: a drive with no operation and unload pending unloads its head when it is IDLE: the head-load line drops and the
head position stays; with none pending and its head loaded it starts the head-unload timer, unless it runs. An operation appended
stops the timer and abandons a pending unload, but one of the idle flush, and the label write that a relocation left by it queues,
keep it. -/
def Obligations.HeadUnloadExpiryFlushes : Prop :=
  (∀ (d : DriveId) (s : State), (s.work.drive d).unloadTimer.isSome = true →
    let dirty := fun b => (s.work.buffer b).key.any (·.drive == d) = true ∧ (s.work.buffer b).state = .ready ∧
      (s.work.buffer b).dirtySet ≠ []
    ((∀ b, ¬ dirty b) → exec (.headUnloadExpiry d) s = .next { s with work := settle s.cfg (s.work.updDrive d fun dr =>
      { dr with unloadTimer := none, unloadPending := true, idleRelocs := [] }) }) ∧
    ∃ w, exec (.headUnloadExpiry d) s = .next { s with work := settle s.cfg w } ∧ (w.drive d).unloadPending = true ∧
      (w.drive d).unloadTimer = none ∧
      (∀ b, dirty b → (w.buffer b).state = .flushing ∧ ∃ key, (s.work.buffer b).key = some key ∧
        ⟨.writeSectors, key.track, key.side, some b, .none, .idleFlush, false⟩ ∈ (w.drive d).queued) ∧
      (∀ b, ¬ dirty b → w.buffer b = s.work.buffer b) ∧ (∀ c, c ≠ d → w.drive c = s.work.drive c) ∧
      w.handles = s.work.handles ∧ w.queue = s.work.queue ∧ w.lines = s.work.lines) ∧
  (∀ (cfg : Cfg) (d : DriveId) (w : Work), (w.drive d).ops = [] →
    let dr := w.drive d
    let loaded := dr.mech ∈ [.idle, .stepping, .settling, .waitChannel, .transferring, .recalibrating]
    (dr.unloadPending = true → dr.mech = .idle → w.stepDrive cfg d = some (w.updDrive d fun x =>
      { x with mech := .unloaded, headLoad := false, unloadPending := false, idleRelocs := [] })) ∧
    (dr.unloadPending = true → dr.mech ≠ .idle → w.stepDrive cfg d = none) ∧
    (dr.unloadPending = false → loaded → dr.unloadTimer = none → w.stepDrive cfg d = some (w.updDrive d fun x =>
      { x with unloadTimer := some (cfg.headUnload * 1000) })) ∧
    (dr.unloadPending = false → ¬ loaded ∨ dr.unloadTimer ≠ none → w.stepDrive cfg d = none)) ∧
  (∀ (dr : Drive) (op : Op), (dr.append op).unloadTimer = none ∧
    (dr.appendWait = [] ∨ 16 ≤ dr.ops.length → (dr.append op).queued = dr.queued ++ [op]) ∧
    (dr.append op).unloadPending = (dr.unloadPending && op.origin == .idleFlush)) ∧
  ∀ (b c : BufId) (key : TrackKey) (w : Work), (w.buffer b).key = some key → b ∈ (w.drive key.drive).idleRelocs →
    (w.drive key.drive).unloadPending = true → ((w.relocateInto b c).drive key.drive).unloadPending = true

/-! ### Desk lines -/

/-- R163, R165 to R167, R182: a character received on an enabled point-to-point line. HUNTING, one with an error is counted,
STX on 8N starts a packed frame, a printable character other than space a text frame, and any other is ignored; ASSEMBLING, it
joins the frame or discards it with its cause counted and the line QUIET; HELD, it is counted STRAY and lost; QUIET, it is
ignored. A line that is disabled or multidrop does not hear it. An 8N character has no parity bit, so none is in error, and a 7E
character has seven bits. The model's choices: a character with both errors counts PARITY alone (log 42), and one with either
counts it whatever its value or place in the frame, so that it comes before LENGTH and CHECK; a 121st character of a text frame
counts LENGTH, printable or not (log 53). -/
def Obligations.CharactersAssembleAFrame : Prop :=
  ∀ (l : LineId) (sent : LineChar) (s : State),
    let x := s.work.line l
    let ch := match x.format with
      | .f8N => { sent with mark := false, parityError := false }
      | .f7E => { sent with mark := false, value := sent.value &&& 0x7F }
      | .f9M => sent
    let becomes := fun f : Line → Line =>
      exec (.characterReceived l sent) s = .next { s with work := s.work.updLine l f }
    let ignored := exec (.characterReceived l sent) s = .next s
    let joins := becomes fun y => { y with rxChars := y.rxChars ++ [ch.value] }
    let parity := fun y : Line => { y with counts := { y.counts with parity := min 65535 (y.counts.parity + 1) } }
    let framing := fun y : Line => { y with counts := { y.counts with framing := min 65535 (y.counts.framing + 1) } }
    let check := fun y : Line => { y with counts := { y.counts with check := min 65535 (y.counts.check + 1) } }
    let length := fun y : Line => { y with counts := { y.counts with length := min 65535 (y.counts.length + 1) } }
    let discarded := fun (count : Line → Line) => becomes fun y => { count y with rx := .quiet, rxChars := [] }
    let clean := ch.parityError = false ∧ ch.framingError = false
    (x.enabled = false ∨ x.format = .f9M → ignored) ∧
    (x.enabled = true → x.format ≠ .f9M →
      (x.rx = .hunting →
        (ch.parityError = true → becomes parity) ∧
        (ch.parityError = false → ch.framingError = true → becomes framing) ∧
        (clean → ch.value = 0x02 → x.format = .f8N →
          becomes fun y => { y with rx := .assembling, rxChars := [0x02], rxPacked := true }) ∧
        (clean → 0x21 ≤ ch.value.toNat → ch.value.toNat ≤ 0x7E →
          becomes fun y => { y with rx := .assembling, rxChars := [ch.value], rxPacked := false }) ∧
        (clean → ch.value.toNat < 0x21 ∨ 0x7E < ch.value.toNat → ¬ (ch.value = 0x02 ∧ x.format = .f8N) → ignored)) ∧
      (x.rx = .assembling →
        (ch.parityError = true → discarded parity) ∧
        (ch.parityError = false → ch.framingError = true → discarded framing) ∧
        (clean → x.rxPacked = false → ch.value ≠ 0x0D →
          (x.rxChars.length = 120 → discarded length) ∧
          (x.rxChars.length ≠ 120 → 0x20 ≤ ch.value.toNat ∧ ch.value.toNat ≤ 0x7E → joins) ∧
          (x.rxChars.length ≠ 120 → ¬ (0x20 ≤ ch.value.toNat ∧ ch.value.toNat ≤ 0x7E) → discarded check)) ∧
        (clean → x.rxPacked = true → x.rxChars = [0x02] →
          (3 ≤ ch.value.toNat ∧ ch.value.toNat ≤ 200 → joins) ∧
          (¬ (3 ≤ ch.value.toNat ∧ ch.value.toNat ≤ 200) → discarded length)) ∧
        (clean → x.rxPacked = true → 2 ≤ x.rxChars.length →
          (x.rxChars.length + 1 ≠ byteAt x.rxChars 1 + 2 → joins) ∧
          (x.rxChars.length + 1 = byteAt x.rxChars 1 + 2 →
            byteSum ((x.rxChars ++ [ch.value]).drop 1) % 256 ≠ 0 → discarded check))) ∧
      (x.rx = .held → becomes fun y =>
        { y with counts := { y.counts with stray := min 65535 (y.counts.stray + 1) }, rxDropped := true }) ∧
      (x.rx = .quiet → ignored))

/-- R164, R165, R167, R170, R171: the character that completes a valid frame of the line's form, on a point-to-point line or in
the answer of the polled drop, acts as the desk's command that the frame spells, on the line HUNTING again and judged; a frame of
the other form is counted WRONG_FORM, but while the part is RESTARTING under no error (R180, R162). It is taken in that step (log
4). A polled drop's visit ends with it as answered, before it is taken (log 16), and it is taken before any notice that waits for
the drop is admitted, the model's choice (log 55). HELD_FRAME_TAKEN always goes on: while the transmit queue holds 10 frames or
fewer a held frame leaves the buffer, HUNTING or, where a character was dropped, QUIET, and acts as its command; from a desk
whose request is outstanding it is answered BUSY (a LIST's BUSY body is log 13's choice), and while the part is RESTARTING it is
discarded (R107, R180). With more frames queued, or none held, or on a disabled line nothing changes. -/
def Obligations.CompletedFrameActsAsItsCommand : Prop :=
  (∀ (l : LineId) (sent : LineChar) (c : Instr) (s : State),
    let x := s.work.line l
    let ch := lineChar x.format sent
    let drop := if x.format = LineFormat.f9M then x.poll.position else 1
    let desk := deskOf l drop
    let row := if x.format = LineFormat.f9M then Instr.upstreamCharacter l sent else Instr.characterReceived l sent
    let visited := if x.format = LineFormat.f9M then
        (s.work.updDesk desk fun k => { k with presence := .present, missCount := 0 }).updLine l (Line.moveOn s.cfg)
      else s.work
    let acts := fun j => exec row s = exec c { s with work := visited.updLine l fun y =>
      { y with rx := .hunting, rxChars := [], judgement := j } }
    let wrongForm := exec row s = .next { s with work := visited.updLine l fun y =>
      { y with rx := .hunting, rxChars := [],
               counts := if s.work.restarting then y.counts
                 else { y.counts with wrongForm := min 65535 (y.counts.wrongForm + 1) } } }
    x.enabled = true → x.rx = .assembling → ch.parityError = false → ch.framingError = false →
    (x.format = .f9M → x.poll.state = .answer ∧ ch.mark = false) →
    (x.rxPacked = false → ch.value = 0x0D →
      (x.judgement = .unjudged ∨ x.judgement = .text → frameOf c = some (readText desk x.rxChars) → acts .text) ∧
      (x.judgement = .packed → wrongForm)) ∧
    (x.rxPacked = true → 2 ≤ x.rxChars.length → x.rxChars.length + 1 = byteAt x.rxChars 1 + 2 →
      byteSum ((x.rxChars ++ [ch.value]).drop 1) % 256 = 0 →
      (x.judgement = .unjudged ∨ x.judgement = .packed →
        frameOf c = some (readPacked desk (x.rxChars ++ [ch.value])) → acts .packed) ∧
      (x.judgement = .text → wrongForm))) ∧
  ∀ (l : LineId) (s : State),
    let taken := s.work.updLine l fun y =>
      { y with rx := if y.rxDropped then .quiet else .hunting, rxChars := [], rxFrame := none, rxDropped := false }
    (∃ t, exec (.heldFrameTaken l) s = .next t) ∧
    ((s.work.line l).enabled = false ∨ (s.work.line l).rx ≠ .held ∨ 10 < (s.work.line l).tx.length →
      exec (.heldFrameTaken l) s = .next s) ∧
    ∀ f : Frame, (s.work.line l).enabled = true → (s.work.line l).rx = .held → (s.work.line l).rxFrame = some f →
      lineOf f.env.desk = l → (s.work.line l).tx.length ≤ 10 →
      (∀ c, frameOf c = some f →
        ∃ t, exec (.heldFrameTaken l) s = .next t ∧ exec c { s with work := taken } = .next t) ∧
      (s.work.restarting = true → exec (.heldFrameTaken l) s = .next { s with work := taken }) ∧
      (s.work.restarting = false → f.req ≠ .cancel → (s.work.desk f.env.desk).outstanding.isSome = true →
        (s.work.desk f.env.desk).presence = .present → exec (.heldFrameTaken l) s =
          .next { s with work := taken.withReply f.env.desk ⟨kindOf f.req, f.env.tag, .busy,
            if kindOf f.req = some .list then .list true [] else .none⟩ })

/-- R166, R170, R171: a gap discards the frame being assembled, counts GAP and leaves the line HUNTING, and fails the answer of a
polled drop; a quiet time makes a QUIET line HUNTING; the end of the answer window is a miss. A miss raises the drop's count up
to the threshold, makes it ABSENT there, and moves the sequencer on. That a time which no rule is waiting for ends without effect
is the model's choice (logs 1, 2). -/
def Obligations.GapsQuietAndMisses : Prop :=
  ∀ (l : LineId) (s : State),
    let x := s.work.line l
    let gapped := if x.rx = Rx.assembling then s.work.updLine l fun y =>
        { y with counts := { y.counts with gap := min 65535 (y.counts.gap + 1) }, rx := .hunting, rxChars := [] }
      else s.work
    let missed := fun w : Work => (w.updDesk (deskOf l x.poll.position) fun k =>
      { k with missCount := min s.cfg.missThreshold (k.missCount + 1),
               presence := if s.cfg.missThreshold ≤ k.missCount + 1 then .absent else k.presence }).updLine l
      (Line.moveOn s.cfg)
    (x.enabled = true → x.format ≠ .f9M → exec (.gapTimeout l) s = .next { s with work := gapped }) ∧
    (x.enabled = true → x.format = .f9M → x.poll.state = .answer →
      exec (.gapTimeout l) s = .next { s with work := missed gapped }) ∧
    (x.enabled = false ∨ (x.format = .f9M ∧ x.poll.state ≠ .answer) → exec (.gapTimeout l) s = .next s) ∧
    (x.enabled = true → x.rx = .quiet → exec (.quietTimeout l) s =
      .next { s with work := s.work.updLine l fun y => { y with rx := .hunting, rxChars := [] } }) ∧
    (x.enabled = false ∨ x.rx ≠ .quiet → exec (.quietTimeout l) s = .next s) ∧
    (x.poll.state = .window → exec (.answerWindowExpiry l) s = .next { s with work := missed s.work }) ∧
    (x.poll.state ≠ .window → exec (.answerWindowExpiry l) s = .next s)

/-- R168, R120: a frame that has been sent leaves the head of its line's transmit queue, and the next begins; then admission is
tried. A reply that waited for room in a full queue takes the place freed, the model's choice (log 11), as is that the row does
nothing where no frame is queued (log 1). No notice is admitted to a queue of four frames or more, nor where no PRESENT desk of
the line has one. To a queue of three frames one is admitted, the oldest of the first such desk after the drop last admitted, with
the dropped flag, which is cleared; to a shorter queue one is admitted so, and admission is tried again. -/
def Obligations.FrameSentAndNoticeAdmitted : Prop :=
  ∀ (l : LineId) (s : State),
    let ready := fun k : DeskNo => lineOf k = l ∧ (s.work.desk k).presence = .present ∧ (s.work.desk k).notices ≠ []
    let turn := fun k : DeskNo => (dropOf k + 15 - (s.work.line l).dropLastAdmitted) % 8
    ((s.work.line l).tx = [] → exec (.frameSent l) s = .next s) ∧
    (∀ f rest, (s.work.line l).tx = f :: rest →
      let left := rest ++ (s.work.line l).txWait.take 1
      let sent := { s with work := s.work.updLine l fun y => { y with
        tx := left, txWait := y.txWait.drop 1, sending := match left with | [] => [] | g :: _ => compose y g } }
      (4 ≤ left.length ∨ (∀ k, ¬ ready k) → exec (.frameSent l) s = .next sent) ∧
      ((s.work.line l).enabled = true → exec (.frameSent l) s = exec (.noticeAdmission l) sent)) ∧
    ((s.work.line l).enabled = false ∨ 4 ≤ (s.work.line l).tx.length ∨ (∀ k, ¬ ready k) →
      exec (.noticeAdmission l) s = .next s) ∧
    ∀ k n rest, (s.work.line l).enabled = true → (s.work.line l).tx.length ≤ 3 → ready k →
      (s.work.desk k).notices = n :: rest → 1 ≤ (s.work.line l).dropLastAdmitted →
      (s.work.line l).dropLastAdmitted ≤ 8 → (∀ j, ready j → turn k ≤ turn j) →
      let told := s.work.updDesk k fun y => { y with notices := rest, noticesDropped := false }
      let frame : TxFrame := ⟨k, .notice (s.work.desk k).noticesDropped n⟩
      let admitted := { s with work := told.updLine l fun y =>
        { y with tx := y.tx ++ [frame], dropLastAdmitted := dropOf k,
                 sending := if y.tx = [] then compose y frame else y.sending } }
      ((s.work.line l).tx.length = 3 → exec (.noticeAdmission l) s = .next admitted) ∧
      exec (.noticeAdmission l) s = exec (.noticeAdmission l) admitted

/-- R169 to R171: the poll of an enabled multidrop line. READY, an ABSENT drop is passed over unless the cycle count is 0, and
any other is polled once the transmit queue is empty, with its address character and the poll character; the poll sent opens the
answer window; the polled drop's address character opens its answer, and its nil character ends the visit as answered; any other
character there is a miss, unless it begins a frame. R166: a character of an answer's frame joins it, or discards it with its
cause counted and the buffer QUIET, a miss. Characters outside a visit are STRAY, and a held frame notes the loss. After the last
drop comes the pause, and after it the next cycle. The model's choices: a QUIET buffer hunts again as the answer opens (log 17);
the address mark is judged before a framing error, and while a frame is held the nil character still ends the visit and any other
is STRAY (log 18); a QUIET buffer does not spare a character from STRAY (log 43); an address character that breaks off a frame
leaves the buffer QUIET (log 44); an answer whose held frame is taken meanwhile goes on in a QUIET buffer as in a HUNTING one
(log 54); a framing error comes before LENGTH and CHECK, and a 121st character counts LENGTH, printable or not (log 53); the
window opens when the poll has been sent, whatever has entered the transmit queue meanwhile (log 51); in PAUSE the position stays
at the last drop of the list (log 61). -/
def Obligations.PollCycle : Prop :=
  ∀ (l : LineId) (upstream : LineChar) (s : State), (s.work.line l).enabled = true → (s.work.line l).format = .f9M →
    let x := s.work.line l
    let ch : LineChar := { upstream with parityError := false }
    let took := exec (.upstreamCharacter l upstream) s
    let desk := deskOf l x.poll.position
    let movedOn := fun y : Line => match y.drops.find? (fun n => decide (y.poll.position < n)) with
      | some n => { y with poll := { y.poll with state := .ready, position := n, timer := none } }
      | none => { y with poll := { y.poll with state := .pause, timer := some s.cfg.pollPause } }
    let becomes := fun (c : Instr) (f : Line → Line) => exec c s = .next { s with work := s.work.updLine l f }
    let upstreamBecomes := fun f : Line → Line => took = .next { s with work := s.work.updLine l f }
    let stray := fun y : Line => { y with
      counts := { y.counts with stray := min 65535 (y.counts.stray + 1) }, rxDropped := y.rxDropped || y.rx == .held }
    let framing := fun y : Line => { y with counts := { y.counts with framing := min 65535 (y.counts.framing + 1) } }
    let check := fun y : Line => { y with counts := { y.counts with check := min 65535 (y.counts.check + 1) } }
    let length := fun y : Line => { y with counts := { y.counts with length := min 65535 (y.counts.length + 1) } }
    let missed := fun w : Work => (w.updDesk desk fun k =>
      { k with missCount := min s.cfg.missThreshold (k.missCount + 1),
               presence := if s.cfg.missThreshold ≤ k.missCount + 1 then .absent else k.presence }).updLine l movedOn
    let answered := (s.work.updDesk desk fun k => { k with presence := .present, missCount := 0 }).updLine l movedOn
    let addressed := ch.mark = true ∧ ch.framingError = false ∧ ch.value = byte x.poll.position
    let misses := fun f : Line → Line => took = .next { s with work := missed (s.work.updLine l f) }
    let discarded := fun (count : Line → Line) => misses fun y => { count y with rx := .quiet, rxChars := [] }
    let joins := upstreamBecomes fun y => { y with rxChars := y.rxChars ++ [ch.value] }
    let skipped := (s.work.desk desk).presence = .absent ∧ x.poll.cycle ≠ 0
    (x.poll.state = .ready → (skipped → becomes (.pollBegin l) movedOn) ∧
      (¬ skipped → x.tx = [] → becomes (.pollBegin l) fun y => { y with
        poll := { y.poll with state := .polling }, pollOut := [⟨byte y.poll.position, true⟩, ⟨0x05, false⟩] }) ∧
      (¬ skipped → x.tx ≠ [] → exec (.pollBegin l) s = .next s)) ∧
    (x.poll.state = .polling → becomes (.pollSent l) fun y =>
      { y with poll := { y.poll with state := .window, timer := some y.answerWindow }, pollOut := [] }) ∧
    (x.poll.state = .pause → becomes (.pollPauseEnd l) fun y =>
      { y with poll := ⟨.ready, y.drops.headD 1, (y.poll.cycle + 1) % 8, none⟩ }) ∧
    (x.poll.state = .window → (addressed → upstreamBecomes fun y =>
        { y with poll := { y.poll with state := .answer, timer := none }, rx := if y.rx = .quiet then .hunting else y.rx }) ∧
      (¬ addressed → upstreamBecomes stray)) ∧
    (x.poll.state = .ready ∨ x.poll.state = .polling ∨ x.poll.state = .pause → upstreamBecomes stray) ∧
    (x.poll.state = .answer → ch.mark = true →
      (x.rx ≠ .assembling → misses stray) ∧
      (x.rx = .assembling → misses fun y => { stray y with rx := .quiet, rxChars := [] })) ∧
    (x.poll.state = .answer → ch.mark = false → x.rx = .hunting ∨ x.rx = .quiet →
      (ch.framingError = true → misses framing) ∧
      (ch.framingError = false →
        (ch.value = 0x15 → took = .next { s with work := answered }) ∧
        (ch.value = 0x02 → upstreamBecomes fun y => { y with rx := .assembling, rxChars := [0x02], rxPacked := true }) ∧
        (0x21 ≤ ch.value.toNat → ch.value.toNat ≤ 0x7E → upstreamBecomes fun y =>
          { y with rx := .assembling, rxChars := [ch.value], rxPacked := false }) ∧
        (ch.value.toNat < 0x21 ∨ 0x7E < ch.value.toNat → ch.value ≠ 0x15 → ch.value ≠ 0x02 →
          took = .next { s with work := missed s.work }))) ∧
    (x.poll.state = .answer → ch.mark = false → x.rx = .held →
      (ch.value = 0x15 → ch.framingError = false → took = .next { s with work := answered }) ∧
      (ch.value ≠ 0x15 ∨ ch.framingError = true → upstreamBecomes stray)) ∧
    (x.poll.state = .answer → ch.mark = false → x.rx = .assembling →
      (ch.framingError = true → discarded framing) ∧
      (ch.framingError = false → x.rxPacked = false → ch.value ≠ 0x0D →
        (x.rxChars.length = 120 → discarded length) ∧
        (x.rxChars.length ≠ 120 → 0x20 ≤ ch.value.toNat ∧ ch.value.toNat ≤ 0x7E → joins) ∧
        (x.rxChars.length ≠ 120 → ¬ (0x20 ≤ ch.value.toNat ∧ ch.value.toNat ≤ 0x7E) → discarded check)) ∧
      (ch.framingError = false → x.rxPacked = true → x.rxChars = [0x02] →
        (3 ≤ ch.value.toNat ∧ ch.value.toNat ≤ 200 → joins) ∧
        (¬ (3 ≤ ch.value.toNat ∧ ch.value.toNat ≤ 200) → discarded length)) ∧
      (ch.framingError = false → x.rxPacked = true → 2 ≤ x.rxChars.length →
        (x.rxChars.length + 1 ≠ byteAt x.rxChars 1 + 2 → joins) ∧
        (x.rxChars.length + 1 = byteAt x.rxChars 1 + 2 →
          byteSum ((x.rxChars ++ [ch.value]).drop 1) % 256 ≠ 0 → discarded check)))

/-- R172: on an enabled point-to-point line, desk ready asserted stops the negation timer and makes the desk PRESENT, negated
starts the timer, and the timer's expiry with it still negated makes the desk ABSENT; otherwise only the level is taken. That an
expiry changes nothing where the timer is stopped or the input asserted is the model's choice (logs 1, 2). -/
def Obligations.DeskReadyMakesPresence : Prop :=
  ∀ (l : LineId) (level : Bool) (s : State),
    let x := s.work.line l
    (x.deskReady = level ∨ x.enabled = false ∨ x.format = .f9M → exec (.deskReadyChange l level) s =
      .next { s with work := s.work.updLine l fun y => { y with deskReady := level } }) ∧
    (x.enabled = true → x.format ≠ .f9M → x.deskReady = false →
      let risen := s.work.updLine l fun y => { y with deskReady := true, negation := none }
      exec (.deskReadyChange l true) s =
        .next { s with work := risen.updDesk (deskOf l 1) fun k => { k with presence := .present } }) ∧
    (x.enabled = true → x.format ≠ .f9M → x.deskReady = true → exec (.deskReadyChange l false) s =
      .next { s with work := s.work.updLine l fun y => { y with deskReady := false, negation := some 1000 } }) ∧
    (x.negation.isSome = true → x.deskReady = false →
      let expired := s.work.updLine l fun y => { y with negation := none }
      exec (.negationTimerExpiry l) s =
        .next { s with work := expired.updDesk (deskOf l 1) fun k => { k with presence := .absent } }) ∧
    (x.negation = none ∨ x.deskReady = true → exec (.negationTimerExpiry l) s = .next s)
end

