-- ==== Sys2Proof/Laws/Cells.lean ====
section
/-! SUPPORT. The free-space map, said once: what a block reads as after a change, and that every operation over a map keeps
its canonical form (R24, R25, R26). -/

namespace Sys2Proof.Machine

open Sys2Proof

/-! ### One block -/

/-- A map that starts later starts earlier as well. -/
theorem cellsFrom_mono {a b : Nat} (h : a ≤ b) : ∀ cs, cellsFrom b cs = true → cellsFrom a cs = true
  | [], _ => rfl
  | (c, st) :: rest, hc => by
    simp only [cellsFrom, Bool.and_eq_true, decide_eq_true_eq] at hc ⊢
    exact ⟨⟨by omega, hc.1.2⟩, hc.2⟩

/-- A block below the first listed one is FREE. -/
theorem cellState_below {b : Nat} : ∀ {k : Nat} (cs : List (Nat × BlockState)), cellsFrom k cs = true → b < k →
    cellState cs b = .free
  | _, [], _, _ => rfl
  | k, (c, st) :: rest, h, hb => by
    simp only [cellsFrom, Bool.and_eq_true, decide_eq_true_eq] at h
    have hne : c ≠ b := by omega
    simp only [cellState, if_neg hne]
    exact cellState_below rest h.2 (by omega)

/-- The block that is changed reads as its new state. -/
theorem cellState_putCell_same (b : Nat) (st : BlockState) : ∀ {k : Nat} (cs : List (Nat × BlockState)),
    cellsFrom k cs = true → cellState (putCell b st cs) b = st
  | _, [], _ => by
    simp only [putCell]
    split <;> simp_all [cellState]
  | k, (c, t) :: rest, h => by
    simp only [cellsFrom, Bool.and_eq_true, decide_eq_true_eq] at h
    simp only [putCell]
    split
    · rename_i hb
      split
      · rename_i hf
        have hne : c ≠ b := by omega
        simp only [cellState, if_neg hne, hf]
        exact cellState_below rest h.2 (by omega)
      · simp [cellState]
    · split
      · split
        · rename_i he hf
          subst he hf
          exact cellState_below rest h.2 (by omega)
        · simp [cellState]
      · rename_i hne
        simp only [cellState, if_neg (Ne.symm hne)]
        exact cellState_putCell_same b st rest h.2

/-- Every other block reads as before. -/
theorem cellState_putCell_other {b b' : Nat} (st : BlockState) (hb : b' ≠ b) :
    ∀ cs : List (Nat × BlockState), cellState (putCell b st cs) b' = cellState cs b'
  | [] => by
    simp only [putCell]
    split <;> simp [cellState, Ne.symm hb]
  | (c, t) :: rest => by
    simp only [putCell]
    split
    · split <;> simp [cellState, Ne.symm hb]
    · split
      · rename_i he
        subst he
        split <;> simp [cellState, Ne.symm hb]
      · simp only [cellState]
        rw [cellState_putCell_other st hb rest]

/-! ### The canonical form is kept -/

/-- One block changed. -/
theorem cellsFrom_putCell (b : Nat) (st : BlockState) : ∀ {k : Nat} (cs : List (Nat × BlockState)),
    cellsFrom k cs = true → k ≤ b → cellsFrom k (putCell b st cs) = true
  | k, [], _, hk => by
    simp only [putCell]
    split <;> simp_all [cellsFrom]
  | k, (c, t) :: rest, h, hk => by
    simp only [putCell]
    have h' := h
    simp only [cellsFrom, Bool.and_eq_true, decide_eq_true_eq] at h'
    split
    · rename_i hb
      split
      · exact h
      · rename_i hf
        simp only [cellsFrom, Bool.and_eq_true, decide_eq_true_eq, bne_iff_ne, ne_eq] at h ⊢
        exact ⟨⟨hk, hf⟩, ⟨by omega, h.1.2⟩, h.2⟩
    · split
      · rename_i he
        subst he
        split
        · exact cellsFrom_mono (by omega) rest h'.2
        · rename_i hf
          simp only [cellsFrom, Bool.and_eq_true, decide_eq_true_eq, bne_iff_ne, ne_eq]
          exact ⟨⟨hk, hf⟩, h'.2⟩
      · simp only [cellsFrom, Bool.and_eq_true, decide_eq_true_eq]
        exact ⟨h'.1, cellsFrom_putCell b st rest h'.2 (by omega)⟩

/-- Blocks set to one state in turn. -/
theorem cellsFrom_putCells (st : BlockState) : ∀ (bs : List Nat) (cs : List (Nat × BlockState)),
    cellsFrom 0 cs = true → cellsFrom 0 (putCells bs st cs) = true
  | [], _, h => h
  | b :: bs, cs, h => cellsFrom_putCells st bs (putCell b st cs) (cellsFrom_putCell b st cs h (Nat.zero_le b))

/-- A volume's blocks marked. -/
theorem cellsFrom_mark (m : Media) (bs : List Nat) (st : BlockState) (h : cellsFrom 0 m.cells = true) :
    cellsFrom 0 (m.mark bs st).cells = true := cellsFrom_putCells st bs m.cells h

/-- An allocation: it takes a block, STAGED from then on, and keeps the form. -/
theorem allocate_spec (m m' : Media) (b : Nat) (h : m.allocate = some (b, m')) (hc : cellsFrom 0 m.cells = true) :
    m'.cells = putCell b .staged m.cells ∧ m'.label = m.label ∧ m'.catalogue = m.catalogue ∧
      cellsFrom 0 m'.cells = true ∧ cellState m'.cells b = .staged := by
  unfold Media.allocate at h
  split at h
  · simp at h
  · simp only [Option.some.injEq, Prod.mk.injEq] at h
    obtain ⟨rfl, rfl⟩ := h
    exact ⟨rfl, rfl, rfl, cellsFrom_putCell _ _ _ hc (Nat.zero_le _), cellState_putCell_same _ _ _ hc⟩

/-- A block handed back. -/
theorem cellsFrom_giveBack (m : Media) (b : Nat) (h : cellsFrom 0 m.cells = true) :
    cellsFrom 0 (m.giveBack b).cells = true := cellsFrom_putCell b .free m.cells h (Nat.zero_le b)

/-- A block recorded BAD. -/
theorem cellsFrom_recordBad (m : Media) (b : Nat) (h : cellsFrom 0 m.cells = true) :
    cellsFrom 0 (m.recordBad b).cells = true := by
  unfold Media.recordBad
  split <;> exact cellsFrom_putCell b .bad m.cells h (Nat.zero_le b)

/-- A volume that a mount or a FORMAT makes. -/
theorem cellsFrom_freshMedia (label : Label) (catalogue : Vector Slot 116) :
    cellsFrom 0 (freshMedia label catalogue).cells = true :=
  cellsFrom_putCells _ _ _ (cellsFrom_putCells _ _ _ rfl)

/-- After reset no drive has a map. -/
theorem reset_media (d : DriveId) : (State.reset.work.drive d).media = none := by
  simp [State.reset, Work.powerOn, Work.drive, Drive.powerOn]

/-! ### The search -/

/-- The search of next-fit gives a FREE block of its range. -/
theorem scanFree_free (cells : List (Nat × BlockState)) : ∀ (n b x : Nat), scanFree cells n b = some x →
    cellState cells x = .free ∧ b ≤ x ∧ x < b + n
  | 0, _, _, h => by simp [scanFree] at h
  | n + 1, b, x, h => by
    simp only [scanFree] at h
    split at h
    · rename_i hf
      cases h
      exact ⟨hf, Nat.le_refl _, by omega⟩
    · have := scanFree_free cells n (b + 1) x h
      exact ⟨this.1, by omega, by omega⟩

end Sys2Proof.Machine
end

