-- ==== Sys2Proof/Laws/State.lean ====
section
/-! SUPPORT. One lemma for each field under each update, so that no proof unfolds a record update. -/

namespace Sys2Proof.Machine

open Sys2Proof

/-! ### updDesk -/

@[simp] theorem desk_updDesk (w : Work) (d : DeskNo) (f : Desk → Desk) (i : DeskNo) :
    (w.updDesk d f).desk i = if d = i then f (w.desk d) else w.desk i := by
  simp only [Work.updDesk, Work.desk, Fin.getElem_fin, Vector.getElem_set, Fin.val_inj]

@[simp] theorem line_updDesk (w : Work) (d : DeskNo) (f : Desk → Desk) (i : LineId) :
    (w.updDesk d f).line i = w.line i := rfl

@[simp] theorem drive_updDesk (w : Work) (d : DeskNo) (f : Desk → Desk) (i : DriveId) :
    (w.updDesk d f).drive i = w.drive i := rfl

@[simp] theorem buffer_updDesk (w : Work) (d : DeskNo) (f : Desk → Desk) (i : BufId) :
    (w.updDesk d f).buffer i = w.buffer i := rfl

@[simp] theorem handle_updDesk (w : Work) (d : DeskNo) (f : Desk → Desk) (i : HandleIx) :
    (w.updDesk d f).handle i = w.handle i := rfl

@[simp] theorem entry_updDesk (w : Work) (d : DeskNo) (f : Desk → Desk) (i : QSlot) :
    (w.updDesk d f).entry i = w.entry i := rfl

@[simp] theorem record_updDesk (w : Work) (d : DeskNo) (f : Desk → Desk) (i : RecIx) :
    (w.updDesk d f).record i = w.record i := rfl

@[simp] theorem restarting_updDesk (w : Work) (d : DeskNo) (f : Desk → Desk) : (w.updDesk d f).restarting = w.restarting := rfl

@[simp] theorem lastRestart_updDesk (w : Work) (d : DeskNo) (f : Desk → Desk) : (w.updDesk d f).lastRestart = w.lastRestart := rfl

@[simp] theorem nextArrival_updDesk (w : Work) (d : DeskNo) (f : Desk → Desk) : (w.updDesk d f).nextArrival = w.nextArrival := rfl

@[simp] theorem lru_updDesk (w : Work) (d : DeskNo) (f : Desk → Desk) : (w.updDesk d f).lru = w.lru := rfl

@[simp] theorem waitList_updDesk (w : Work) (d : DeskNo) (f : Desk → Desk) : (w.updDesk d f).waitList = w.waitList := rfl

@[simp] theorem poolDue_updDesk (w : Work) (d : DeskNo) (f : Desk → Desk) : (w.updDesk d f).poolDue = w.poolDue := rfl

@[simp] theorem owner_updDesk (w : Work) (d : DeskNo) (f : Desk → Desk) : (w.updDesk d f).owner = w.owner := rfl

@[simp] theorem lastGranted_updDesk (w : Work) (d : DeskNo) (f : Desk → Desk) : (w.updDesk d f).lastGranted = w.lastGranted := rfl

/-! ### updLine -/

@[simp] theorem desk_updLine (w : Work) (l : LineId) (f : Line → Line) (i : DeskNo) :
    (w.updLine l f).desk i = w.desk i := rfl

@[simp] theorem line_updLine (w : Work) (l : LineId) (f : Line → Line) (i : LineId) :
    (w.updLine l f).line i = if l = i then f (w.line l) else w.line i := by
  simp only [Work.updLine, Work.line, Fin.getElem_fin, Vector.getElem_set, Fin.val_inj]

@[simp] theorem drive_updLine (w : Work) (l : LineId) (f : Line → Line) (i : DriveId) :
    (w.updLine l f).drive i = w.drive i := rfl

@[simp] theorem buffer_updLine (w : Work) (l : LineId) (f : Line → Line) (i : BufId) :
    (w.updLine l f).buffer i = w.buffer i := rfl

@[simp] theorem handle_updLine (w : Work) (l : LineId) (f : Line → Line) (i : HandleIx) :
    (w.updLine l f).handle i = w.handle i := rfl

@[simp] theorem entry_updLine (w : Work) (l : LineId) (f : Line → Line) (i : QSlot) :
    (w.updLine l f).entry i = w.entry i := rfl

@[simp] theorem record_updLine (w : Work) (l : LineId) (f : Line → Line) (i : RecIx) :
    (w.updLine l f).record i = w.record i := rfl

@[simp] theorem restarting_updLine (w : Work) (l : LineId) (f : Line → Line) : (w.updLine l f).restarting = w.restarting := rfl

@[simp] theorem lastRestart_updLine (w : Work) (l : LineId) (f : Line → Line) : (w.updLine l f).lastRestart = w.lastRestart := rfl

@[simp] theorem nextArrival_updLine (w : Work) (l : LineId) (f : Line → Line) : (w.updLine l f).nextArrival = w.nextArrival := rfl

@[simp] theorem lru_updLine (w : Work) (l : LineId) (f : Line → Line) : (w.updLine l f).lru = w.lru := rfl

@[simp] theorem waitList_updLine (w : Work) (l : LineId) (f : Line → Line) : (w.updLine l f).waitList = w.waitList := rfl

@[simp] theorem poolDue_updLine (w : Work) (l : LineId) (f : Line → Line) : (w.updLine l f).poolDue = w.poolDue := rfl

@[simp] theorem owner_updLine (w : Work) (l : LineId) (f : Line → Line) : (w.updLine l f).owner = w.owner := rfl

@[simp] theorem lastGranted_updLine (w : Work) (l : LineId) (f : Line → Line) : (w.updLine l f).lastGranted = w.lastGranted := rfl

/-! ### updDrive -/

@[simp] theorem desk_updDrive (w : Work) (d : DriveId) (f : Drive → Drive) (i : DeskNo) :
    (w.updDrive d f).desk i = w.desk i := rfl

@[simp] theorem line_updDrive (w : Work) (d : DriveId) (f : Drive → Drive) (i : LineId) :
    (w.updDrive d f).line i = w.line i := rfl

@[simp] theorem drive_updDrive (w : Work) (d : DriveId) (f : Drive → Drive) (i : DriveId) :
    (w.updDrive d f).drive i = if d = i then f (w.drive d) else w.drive i := by
  simp only [Work.updDrive, Work.drive, Fin.getElem_fin, Vector.getElem_set, Fin.val_inj]

@[simp] theorem buffer_updDrive (w : Work) (d : DriveId) (f : Drive → Drive) (i : BufId) :
    (w.updDrive d f).buffer i = w.buffer i := rfl

@[simp] theorem handle_updDrive (w : Work) (d : DriveId) (f : Drive → Drive) (i : HandleIx) :
    (w.updDrive d f).handle i = w.handle i := rfl

@[simp] theorem entry_updDrive (w : Work) (d : DriveId) (f : Drive → Drive) (i : QSlot) :
    (w.updDrive d f).entry i = w.entry i := rfl

@[simp] theorem record_updDrive (w : Work) (d : DriveId) (f : Drive → Drive) (i : RecIx) :
    (w.updDrive d f).record i = w.record i := rfl

@[simp] theorem restarting_updDrive (w : Work) (d : DriveId) (f : Drive → Drive) : (w.updDrive d f).restarting = w.restarting := rfl

@[simp] theorem lastRestart_updDrive (w : Work) (d : DriveId) (f : Drive → Drive) : (w.updDrive d f).lastRestart = w.lastRestart := rfl

@[simp] theorem nextArrival_updDrive (w : Work) (d : DriveId) (f : Drive → Drive) : (w.updDrive d f).nextArrival = w.nextArrival := rfl

@[simp] theorem lru_updDrive (w : Work) (d : DriveId) (f : Drive → Drive) : (w.updDrive d f).lru = w.lru := rfl

@[simp] theorem waitList_updDrive (w : Work) (d : DriveId) (f : Drive → Drive) : (w.updDrive d f).waitList = w.waitList := rfl

@[simp] theorem poolDue_updDrive (w : Work) (d : DriveId) (f : Drive → Drive) : (w.updDrive d f).poolDue = w.poolDue := rfl

@[simp] theorem owner_updDrive (w : Work) (d : DriveId) (f : Drive → Drive) : (w.updDrive d f).owner = w.owner := rfl

@[simp] theorem lastGranted_updDrive (w : Work) (d : DriveId) (f : Drive → Drive) : (w.updDrive d f).lastGranted = w.lastGranted := rfl

/-! ### updBuffer -/

@[simp] theorem desk_updBuffer (w : Work) (b : BufId) (f : Buffer → Buffer) (i : DeskNo) :
    (w.updBuffer b f).desk i = w.desk i := rfl

@[simp] theorem line_updBuffer (w : Work) (b : BufId) (f : Buffer → Buffer) (i : LineId) :
    (w.updBuffer b f).line i = w.line i := rfl

@[simp] theorem drive_updBuffer (w : Work) (b : BufId) (f : Buffer → Buffer) (i : DriveId) :
    (w.updBuffer b f).drive i = w.drive i := rfl

@[simp] theorem buffer_updBuffer (w : Work) (b : BufId) (f : Buffer → Buffer) (i : BufId) :
    (w.updBuffer b f).buffer i = if b = i then f (w.buffer b) else w.buffer i := by
  simp only [Work.updBuffer, Work.buffer, Fin.getElem_fin, Vector.getElem_set, Fin.val_inj]

@[simp] theorem handle_updBuffer (w : Work) (b : BufId) (f : Buffer → Buffer) (i : HandleIx) :
    (w.updBuffer b f).handle i = w.handle i := rfl

@[simp] theorem entry_updBuffer (w : Work) (b : BufId) (f : Buffer → Buffer) (i : QSlot) :
    (w.updBuffer b f).entry i = w.entry i := rfl

@[simp] theorem record_updBuffer (w : Work) (b : BufId) (f : Buffer → Buffer) (i : RecIx) :
    (w.updBuffer b f).record i = w.record i := rfl

@[simp] theorem restarting_updBuffer (w : Work) (b : BufId) (f : Buffer → Buffer) : (w.updBuffer b f).restarting = w.restarting := rfl

@[simp] theorem lastRestart_updBuffer (w : Work) (b : BufId) (f : Buffer → Buffer) : (w.updBuffer b f).lastRestart = w.lastRestart := rfl

@[simp] theorem nextArrival_updBuffer (w : Work) (b : BufId) (f : Buffer → Buffer) : (w.updBuffer b f).nextArrival = w.nextArrival := rfl

@[simp] theorem lru_updBuffer (w : Work) (b : BufId) (f : Buffer → Buffer) : (w.updBuffer b f).lru = w.lru := rfl

@[simp] theorem waitList_updBuffer (w : Work) (b : BufId) (f : Buffer → Buffer) : (w.updBuffer b f).waitList = w.waitList := rfl

@[simp] theorem poolDue_updBuffer (w : Work) (b : BufId) (f : Buffer → Buffer) : (w.updBuffer b f).poolDue = w.poolDue := rfl

@[simp] theorem owner_updBuffer (w : Work) (b : BufId) (f : Buffer → Buffer) : (w.updBuffer b f).owner = w.owner := rfl

@[simp] theorem lastGranted_updBuffer (w : Work) (b : BufId) (f : Buffer → Buffer) : (w.updBuffer b f).lastGranted = w.lastGranted := rfl

/-! ### setHandle -/

@[simp] theorem desk_setHandle (w : Work) (h : HandleIx) (x : Option Handle) (i : DeskNo) :
    (w.setHandle h x).desk i = w.desk i := rfl

@[simp] theorem line_setHandle (w : Work) (h : HandleIx) (x : Option Handle) (i : LineId) :
    (w.setHandle h x).line i = w.line i := rfl

@[simp] theorem drive_setHandle (w : Work) (h : HandleIx) (x : Option Handle) (i : DriveId) :
    (w.setHandle h x).drive i = w.drive i := rfl

@[simp] theorem buffer_setHandle (w : Work) (h : HandleIx) (x : Option Handle) (i : BufId) :
    (w.setHandle h x).buffer i = w.buffer i := rfl

@[simp] theorem handle_setHandle (w : Work) (h : HandleIx) (x : Option Handle) (i : HandleIx) :
    (w.setHandle h x).handle i = if h = i then x else w.handle i := by
  simp only [Work.setHandle, Work.handle, Fin.getElem_fin, Vector.getElem_set, Fin.val_inj]

@[simp] theorem entry_setHandle (w : Work) (h : HandleIx) (x : Option Handle) (i : QSlot) :
    (w.setHandle h x).entry i = w.entry i := rfl

@[simp] theorem record_setHandle (w : Work) (h : HandleIx) (x : Option Handle) (i : RecIx) :
    (w.setHandle h x).record i = w.record i := rfl

@[simp] theorem restarting_setHandle (w : Work) (h : HandleIx) (x : Option Handle) : (w.setHandle h x).restarting = w.restarting := rfl

@[simp] theorem lastRestart_setHandle (w : Work) (h : HandleIx) (x : Option Handle) : (w.setHandle h x).lastRestart = w.lastRestart := rfl

@[simp] theorem nextArrival_setHandle (w : Work) (h : HandleIx) (x : Option Handle) : (w.setHandle h x).nextArrival = w.nextArrival := rfl

@[simp] theorem lru_setHandle (w : Work) (h : HandleIx) (x : Option Handle) : (w.setHandle h x).lru = w.lru := rfl

@[simp] theorem waitList_setHandle (w : Work) (h : HandleIx) (x : Option Handle) : (w.setHandle h x).waitList = w.waitList := rfl

@[simp] theorem poolDue_setHandle (w : Work) (h : HandleIx) (x : Option Handle) : (w.setHandle h x).poolDue = w.poolDue := rfl

@[simp] theorem owner_setHandle (w : Work) (h : HandleIx) (x : Option Handle) : (w.setHandle h x).owner = w.owner := rfl

@[simp] theorem lastGranted_setHandle (w : Work) (h : HandleIx) (x : Option Handle) : (w.setHandle h x).lastGranted = w.lastGranted := rfl

/-! ### setEntry -/

@[simp] theorem desk_setEntry (w : Work) (q : QSlot) (x : Option Entry) (i : DeskNo) :
    (w.setEntry q x).desk i = w.desk i := rfl

@[simp] theorem line_setEntry (w : Work) (q : QSlot) (x : Option Entry) (i : LineId) :
    (w.setEntry q x).line i = w.line i := rfl

@[simp] theorem drive_setEntry (w : Work) (q : QSlot) (x : Option Entry) (i : DriveId) :
    (w.setEntry q x).drive i = w.drive i := rfl

@[simp] theorem buffer_setEntry (w : Work) (q : QSlot) (x : Option Entry) (i : BufId) :
    (w.setEntry q x).buffer i = w.buffer i := rfl

@[simp] theorem handle_setEntry (w : Work) (q : QSlot) (x : Option Entry) (i : HandleIx) :
    (w.setEntry q x).handle i = w.handle i := rfl

@[simp] theorem entry_setEntry (w : Work) (q : QSlot) (x : Option Entry) (i : QSlot) :
    (w.setEntry q x).entry i = if q = i then x else w.entry i := by
  simp only [Work.setEntry, Work.entry, Fin.getElem_fin, Vector.getElem_set, Fin.val_inj]

@[simp] theorem record_setEntry (w : Work) (q : QSlot) (x : Option Entry) (i : RecIx) :
    (w.setEntry q x).record i = w.record i := rfl

@[simp] theorem restarting_setEntry (w : Work) (q : QSlot) (x : Option Entry) : (w.setEntry q x).restarting = w.restarting := rfl

@[simp] theorem lastRestart_setEntry (w : Work) (q : QSlot) (x : Option Entry) : (w.setEntry q x).lastRestart = w.lastRestart := rfl

@[simp] theorem nextArrival_setEntry (w : Work) (q : QSlot) (x : Option Entry) : (w.setEntry q x).nextArrival = w.nextArrival := rfl

@[simp] theorem lru_setEntry (w : Work) (q : QSlot) (x : Option Entry) : (w.setEntry q x).lru = w.lru := rfl

@[simp] theorem waitList_setEntry (w : Work) (q : QSlot) (x : Option Entry) : (w.setEntry q x).waitList = w.waitList := rfl

@[simp] theorem poolDue_setEntry (w : Work) (q : QSlot) (x : Option Entry) : (w.setEntry q x).poolDue = w.poolDue := rfl

@[simp] theorem owner_setEntry (w : Work) (q : QSlot) (x : Option Entry) : (w.setEntry q x).owner = w.owner := rfl

@[simp] theorem lastGranted_setEntry (w : Work) (q : QSlot) (x : Option Entry) : (w.setEntry q x).lastGranted = w.lastGranted := rfl

/-! ### setRecord -/

@[simp] theorem desk_setRecord (w : Work) (r : RecIx) (x : Option Retired) (i : DeskNo) :
    (w.setRecord r x).desk i = w.desk i := rfl

@[simp] theorem line_setRecord (w : Work) (r : RecIx) (x : Option Retired) (i : LineId) :
    (w.setRecord r x).line i = w.line i := rfl

@[simp] theorem drive_setRecord (w : Work) (r : RecIx) (x : Option Retired) (i : DriveId) :
    (w.setRecord r x).drive i = w.drive i := rfl

@[simp] theorem buffer_setRecord (w : Work) (r : RecIx) (x : Option Retired) (i : BufId) :
    (w.setRecord r x).buffer i = w.buffer i := rfl

@[simp] theorem handle_setRecord (w : Work) (r : RecIx) (x : Option Retired) (i : HandleIx) :
    (w.setRecord r x).handle i = w.handle i := rfl

@[simp] theorem entry_setRecord (w : Work) (r : RecIx) (x : Option Retired) (i : QSlot) :
    (w.setRecord r x).entry i = w.entry i := rfl

@[simp] theorem record_setRecord (w : Work) (r : RecIx) (x : Option Retired) (i : RecIx) :
    (w.setRecord r x).record i = if r = i then x else w.record i := by
  simp only [Work.setRecord, Work.record, Fin.getElem_fin, Vector.getElem_set, Fin.val_inj]

@[simp] theorem restarting_setRecord (w : Work) (r : RecIx) (x : Option Retired) : (w.setRecord r x).restarting = w.restarting := rfl

@[simp] theorem lastRestart_setRecord (w : Work) (r : RecIx) (x : Option Retired) : (w.setRecord r x).lastRestart = w.lastRestart := rfl

@[simp] theorem nextArrival_setRecord (w : Work) (r : RecIx) (x : Option Retired) : (w.setRecord r x).nextArrival = w.nextArrival := rfl

@[simp] theorem lru_setRecord (w : Work) (r : RecIx) (x : Option Retired) : (w.setRecord r x).lru = w.lru := rfl

@[simp] theorem waitList_setRecord (w : Work) (r : RecIx) (x : Option Retired) : (w.setRecord r x).waitList = w.waitList := rfl

@[simp] theorem poolDue_setRecord (w : Work) (r : RecIx) (x : Option Retired) : (w.setRecord r x).poolDue = w.poolDue := rfl

@[simp] theorem owner_setRecord (w : Work) (r : RecIx) (x : Option Retired) : (w.setRecord r x).owner = w.owner := rfl

@[simp] theorem lastGranted_setRecord (w : Work) (r : RecIx) (x : Option Retired) : (w.setRecord r x).lastGranted = w.lastGranted := rfl

/-! ### updHandle, updMedia and the queues -/

@[simp] theorem handle_updHandle (w : Work) (h : HandleIx) (f : Handle → Handle) (i : HandleIx) :
    (w.updHandle h f).handle i = if h = i then (w.handle h).map f else w.handle i := by
  simp [Work.updHandle]

@[simp] theorem desk_updHandle (w : Work) (h : HandleIx) (f : Handle → Handle) (i : DeskNo) :
    (w.updHandle h f).desk i = w.desk i := rfl

@[simp] theorem line_updHandle (w : Work) (h : HandleIx) (f : Handle → Handle) (i : LineId) :
    (w.updHandle h f).line i = w.line i := rfl

@[simp] theorem drive_updHandle (w : Work) (h : HandleIx) (f : Handle → Handle) (i : DriveId) :
    (w.updHandle h f).drive i = w.drive i := rfl

@[simp] theorem buffer_updHandle (w : Work) (h : HandleIx) (f : Handle → Handle) (i : BufId) :
    (w.updHandle h f).buffer i = w.buffer i := rfl

@[simp] theorem entry_updHandle (w : Work) (h : HandleIx) (f : Handle → Handle) (i : QSlot) :
    (w.updHandle h f).entry i = w.entry i := rfl

@[simp] theorem record_updHandle (w : Work) (h : HandleIx) (f : Handle → Handle) (i : RecIx) :
    (w.updHandle h f).record i = w.record i := rfl

@[simp] theorem restarting_updHandle (w : Work) (h : HandleIx) (f : Handle → Handle) :
    (w.updHandle h f).restarting = w.restarting := rfl

@[simp] theorem lastRestart_updHandle (w : Work) (h : HandleIx) (f : Handle → Handle) :
    (w.updHandle h f).lastRestart = w.lastRestart := rfl

@[simp] theorem nextArrival_updHandle (w : Work) (h : HandleIx) (f : Handle → Handle) :
    (w.updHandle h f).nextArrival = w.nextArrival := rfl

@[simp] theorem lru_updHandle (w : Work) (h : HandleIx) (f : Handle → Handle) :
    (w.updHandle h f).lru = w.lru := rfl

@[simp] theorem waitList_updHandle (w : Work) (h : HandleIx) (f : Handle → Handle) :
    (w.updHandle h f).waitList = w.waitList := rfl

@[simp] theorem poolDue_updHandle (w : Work) (h : HandleIx) (f : Handle → Handle) :
    (w.updHandle h f).poolDue = w.poolDue := rfl

@[simp] theorem owner_updHandle (w : Work) (h : HandleIx) (f : Handle → Handle) :
    (w.updHandle h f).owner = w.owner := rfl

@[simp] theorem lastGranted_updHandle (w : Work) (h : HandleIx) (f : Handle → Handle) :
    (w.updHandle h f).lastGranted = w.lastGranted := rfl

@[simp] theorem desk_updMedia (w : Work) (d : DriveId) (f : Media → Media) (i : DeskNo) :
    (w.updMedia d f).desk i = w.desk i := rfl

@[simp] theorem line_updMedia (w : Work) (d : DriveId) (f : Media → Media) (i : LineId) :
    (w.updMedia d f).line i = w.line i := rfl

@[simp] theorem buffer_updMedia (w : Work) (d : DriveId) (f : Media → Media) (i : BufId) :
    (w.updMedia d f).buffer i = w.buffer i := rfl

@[simp] theorem handle_updMedia (w : Work) (d : DriveId) (f : Media → Media) (i : HandleIx) :
    (w.updMedia d f).handle i = w.handle i := rfl

@[simp] theorem entry_updMedia (w : Work) (d : DriveId) (f : Media → Media) (i : QSlot) :
    (w.updMedia d f).entry i = w.entry i := rfl

@[simp] theorem record_updMedia (w : Work) (d : DriveId) (f : Media → Media) (i : RecIx) :
    (w.updMedia d f).record i = w.record i := rfl

@[simp] theorem drive_updMedia (w : Work) (d : DriveId) (f : Media → Media) (i : DriveId) :
    (w.updMedia d f).drive i
      = if d = i then { w.drive d with media := (w.drive d).media.map f } else w.drive i := by
  simp [Work.updMedia]

@[simp] theorem restarting_updMedia (w : Work) (d : DriveId) (f : Media → Media) :
    (w.updMedia d f).restarting = w.restarting := rfl

@[simp] theorem lastRestart_updMedia (w : Work) (d : DriveId) (f : Media → Media) :
    (w.updMedia d f).lastRestart = w.lastRestart := rfl

@[simp] theorem nextArrival_updMedia (w : Work) (d : DriveId) (f : Media → Media) :
    (w.updMedia d f).nextArrival = w.nextArrival := rfl

@[simp] theorem lru_updMedia (w : Work) (d : DriveId) (f : Media → Media) :
    (w.updMedia d f).lru = w.lru := rfl

@[simp] theorem waitList_updMedia (w : Work) (d : DriveId) (f : Media → Media) :
    (w.updMedia d f).waitList = w.waitList := rfl

@[simp] theorem poolDue_updMedia (w : Work) (d : DriveId) (f : Media → Media) :
    (w.updMedia d f).poolDue = w.poolDue := rfl

@[simp] theorem owner_updMedia (w : Work) (d : DriveId) (f : Media → Media) :
    (w.updMedia d f).owner = w.owner := rfl

@[simp] theorem lastGranted_updMedia (w : Work) (d : DriveId) (f : Media → Media) :
    (w.updMedia d f).lastGranted = w.lastGranted := rfl

@[simp] theorem desk_append (w : Work) (d : DriveId) (op : Op) (i : DeskNo) :
    (w.append d op).desk i = w.desk i := rfl

@[simp] theorem line_append (w : Work) (d : DriveId) (op : Op) (i : LineId) :
    (w.append d op).line i = w.line i := rfl

@[simp] theorem buffer_append (w : Work) (d : DriveId) (op : Op) (i : BufId) :
    (w.append d op).buffer i = w.buffer i := rfl

@[simp] theorem handle_append (w : Work) (d : DriveId) (op : Op) (i : HandleIx) :
    (w.append d op).handle i = w.handle i := rfl

@[simp] theorem entry_append (w : Work) (d : DriveId) (op : Op) (i : QSlot) :
    (w.append d op).entry i = w.entry i := rfl

@[simp] theorem record_append (w : Work) (d : DriveId) (op : Op) (i : RecIx) :
    (w.append d op).record i = w.record i := rfl

@[simp] theorem drive_append (w : Work) (d : DriveId) (op : Op) (i : DriveId) :
    (w.append d op).drive i = if d = i then (w.drive d).append op else w.drive i := by
  simp [Work.append]

@[simp] theorem restarting_append (w : Work) (d : DriveId) (op : Op) :
    (w.append d op).restarting = w.restarting := rfl

@[simp] theorem lastRestart_append (w : Work) (d : DriveId) (op : Op) :
    (w.append d op).lastRestart = w.lastRestart := rfl

@[simp] theorem nextArrival_append (w : Work) (d : DriveId) (op : Op) :
    (w.append d op).nextArrival = w.nextArrival := rfl

@[simp] theorem lru_append (w : Work) (d : DriveId) (op : Op) :
    (w.append d op).lru = w.lru := rfl

@[simp] theorem waitList_append (w : Work) (d : DriveId) (op : Op) :
    (w.append d op).waitList = w.waitList := rfl

@[simp] theorem poolDue_append (w : Work) (d : DriveId) (op : Op) :
    (w.append d op).poolDue = w.poolDue := rfl

@[simp] theorem owner_append (w : Work) (d : DriveId) (op : Op) :
    (w.append d op).owner = w.owner := rfl

@[simp] theorem lastGranted_append (w : Work) (d : DriveId) (op : Op) :
    (w.append d op).lastGranted = w.lastGranted := rfl

/-! ### release -/

@[simp] theorem desk_release (w : Work) (d : DriveId) (i : DeskNo) :
    (w.release d).desk i = w.desk i := rfl

@[simp] theorem line_release (w : Work) (d : DriveId) (i : LineId) :
    (w.release d).line i = w.line i := rfl

@[simp] theorem drive_release (w : Work) (d : DriveId) (i : DriveId) :
    (w.release d).drive i = w.drive i := rfl

@[simp] theorem buffer_release (w : Work) (d : DriveId) (i : BufId) :
    (w.release d).buffer i = w.buffer i := rfl

@[simp] theorem handle_release (w : Work) (d : DriveId) (i : HandleIx) :
    (w.release d).handle i = w.handle i := rfl

@[simp] theorem entry_release (w : Work) (d : DriveId) (i : QSlot) :
    (w.release d).entry i = w.entry i := rfl

@[simp] theorem record_release (w : Work) (d : DriveId) (i : RecIx) :
    (w.release d).record i = w.record i := rfl

@[simp] theorem restarting_release (w : Work) (d : DriveId) : (w.release d).restarting = w.restarting := rfl

@[simp] theorem lastRestart_release (w : Work) (d : DriveId) : (w.release d).lastRestart = w.lastRestart := rfl

@[simp] theorem nextArrival_release (w : Work) (d : DriveId) : (w.release d).nextArrival = w.nextArrival := rfl

@[simp] theorem lru_release (w : Work) (d : DriveId) : (w.release d).lru = w.lru := rfl

@[simp] theorem waitList_release (w : Work) (d : DriveId) : (w.release d).waitList = w.waitList := rfl

@[simp] theorem poolDue_release (w : Work) (d : DriveId) : (w.release d).poolDue = w.poolDue := rfl

@[simp] theorem lastGranted_release (w : Work) (d : DriveId) : (w.release d).lastGranted = w.lastGranted := rfl

/-! ### touchRecent -/

@[simp] theorem desk_touchRecent (w : Work) (b : BufId) (i : DeskNo) :
    (w.touchRecent b).desk i = w.desk i := rfl

@[simp] theorem line_touchRecent (w : Work) (b : BufId) (i : LineId) :
    (w.touchRecent b).line i = w.line i := rfl

@[simp] theorem drive_touchRecent (w : Work) (b : BufId) (i : DriveId) :
    (w.touchRecent b).drive i = w.drive i := rfl

@[simp] theorem buffer_touchRecent (w : Work) (b : BufId) (i : BufId) :
    (w.touchRecent b).buffer i = w.buffer i := rfl

@[simp] theorem handle_touchRecent (w : Work) (b : BufId) (i : HandleIx) :
    (w.touchRecent b).handle i = w.handle i := rfl

@[simp] theorem entry_touchRecent (w : Work) (b : BufId) (i : QSlot) :
    (w.touchRecent b).entry i = w.entry i := rfl

@[simp] theorem record_touchRecent (w : Work) (b : BufId) (i : RecIx) :
    (w.touchRecent b).record i = w.record i := rfl

@[simp] theorem restarting_touchRecent (w : Work) (b : BufId) : (w.touchRecent b).restarting = w.restarting := rfl

@[simp] theorem lastRestart_touchRecent (w : Work) (b : BufId) : (w.touchRecent b).lastRestart = w.lastRestart := rfl

@[simp] theorem nextArrival_touchRecent (w : Work) (b : BufId) : (w.touchRecent b).nextArrival = w.nextArrival := rfl

@[simp] theorem waitList_touchRecent (w : Work) (b : BufId) : (w.touchRecent b).waitList = w.waitList := rfl

@[simp] theorem poolDue_touchRecent (w : Work) (b : BufId) : (w.touchRecent b).poolDue = w.poolDue := rfl

@[simp] theorem owner_touchRecent (w : Work) (b : BufId) : (w.touchRecent b).owner = w.owner := rfl

@[simp] theorem lastGranted_touchRecent (w : Work) (b : BufId) : (w.touchRecent b).lastGranted = w.lastGranted := rfl

/-! ### leaveWait -/

@[simp] theorem desk_leaveWait (w : Work) (p : Party) (i : DeskNo) :
    (w.leaveWait p).desk i = w.desk i := rfl

@[simp] theorem line_leaveWait (w : Work) (p : Party) (i : LineId) :
    (w.leaveWait p).line i = w.line i := rfl

@[simp] theorem drive_leaveWait (w : Work) (p : Party) (i : DriveId) :
    (w.leaveWait p).drive i = w.drive i := rfl

@[simp] theorem buffer_leaveWait (w : Work) (p : Party) (i : BufId) :
    (w.leaveWait p).buffer i = w.buffer i := rfl

@[simp] theorem handle_leaveWait (w : Work) (p : Party) (i : HandleIx) :
    (w.leaveWait p).handle i = w.handle i := rfl

@[simp] theorem entry_leaveWait (w : Work) (p : Party) (i : QSlot) :
    (w.leaveWait p).entry i = w.entry i := rfl

@[simp] theorem record_leaveWait (w : Work) (p : Party) (i : RecIx) :
    (w.leaveWait p).record i = w.record i := rfl

@[simp] theorem restarting_leaveWait (w : Work) (p : Party) : (w.leaveWait p).restarting = w.restarting := rfl

@[simp] theorem lastRestart_leaveWait (w : Work) (p : Party) : (w.leaveWait p).lastRestart = w.lastRestart := rfl

@[simp] theorem nextArrival_leaveWait (w : Work) (p : Party) : (w.leaveWait p).nextArrival = w.nextArrival := rfl

@[simp] theorem lru_leaveWait (w : Work) (p : Party) : (w.leaveWait p).lru = w.lru := rfl

@[simp] theorem owner_leaveWait (w : Work) (p : Party) : (w.leaveWait p).owner = w.owner := rfl

@[simp] theorem lastGranted_leaveWait (w : Work) (p : Party) : (w.leaveWait p).lastGranted = w.lastGranted := rfl

@[simp] theorem owner_release (w : Work) (d : DriveId) :
    (w.release d).owner = if w.owner = some d then none else w.owner := rfl

@[simp] theorem lru_touchRecent (w : Work) (b : BufId) : (w.touchRecent b).lru = w.lru.erase b ++ [b] := rfl

@[simp] theorem waitList_leaveWait (w : Work) (p : Party) :
    (w.leaveWait p).waitList = w.waitList.filter (· != p) := rfl

@[simp] theorem poolDue_leaveWait (w : Work) (p : Party) : (w.leaveWait p).poolDue = w.poolDue := rfl

/-! ### poolEvent -/

@[simp] theorem desk_poolEvent (w : Work) (i : DeskNo) : w.poolEvent.desk i = w.desk i := rfl

@[simp] theorem line_poolEvent (w : Work) (i : LineId) : w.poolEvent.line i = w.line i := rfl

@[simp] theorem drive_poolEvent (w : Work) (i : DriveId) : w.poolEvent.drive i = w.drive i := rfl

@[simp] theorem buffer_poolEvent (w : Work) (i : BufId) : w.poolEvent.buffer i = w.buffer i := rfl

@[simp] theorem handle_poolEvent (w : Work) (i : HandleIx) : w.poolEvent.handle i = w.handle i := rfl

@[simp] theorem entry_poolEvent (w : Work) (i : QSlot) : w.poolEvent.entry i = w.entry i := rfl

@[simp] theorem record_poolEvent (w : Work) (i : RecIx) : w.poolEvent.record i = w.record i := rfl

@[simp] theorem restarting_poolEvent (w : Work) : w.poolEvent.restarting = w.restarting := rfl

@[simp] theorem lastRestart_poolEvent (w : Work) : w.poolEvent.lastRestart = w.lastRestart := rfl

@[simp] theorem nextArrival_poolEvent (w : Work) : w.poolEvent.nextArrival = w.nextArrival := rfl

@[simp] theorem lru_poolEvent (w : Work) : w.poolEvent.lru = w.lru := rfl

@[simp] theorem waitList_poolEvent (w : Work) : w.poolEvent.waitList = w.waitList := rfl

@[simp] theorem owner_poolEvent (w : Work) : w.poolEvent.owner = w.owner := rfl

@[simp] theorem lastGranted_poolEvent (w : Work) : w.poolEvent.lastGranted = w.lastGranted := rfl

@[simp] theorem poolDue_poolEvent (w : Work) : w.poolEvent.poolDue = (w.poolDue || w.waitList != []) := rfl

/-! ### An update that changes nothing -/

theorem updDesk_self (w : Work) (d : DeskNo) (f : Desk → Desk) (h : f (w.desk d) = w.desk d) : w.updDesk d f = w := by
  have e : w.desks.set d (f w.desks[d]) = w.desks := by
    apply Vector.ext
    intro i hi
    simp only [Vector.getElem_set]
    split
    · next he => subst he; exact h
    · rfl
  simp only [Work.updDesk, e]

theorem updDesk_updDesk (w : Work) (d : DeskNo) (f g : Desk → Desk) :
    (w.updDesk d f).updDesk d g = w.updDesk d fun k => g (f k) := by
  simp [Work.updDesk]

theorem updLine_updLine (w : Work) (l : LineId) (f g : Line → Line) :
    (w.updLine l f).updLine l g = w.updLine l fun x => g (f x) := by
  simp [Work.updLine]

theorem updDrive_updDrive (w : Work) (d : DriveId) (f g : Drive → Drive) :
    (w.updDrive d f).updDrive d g = w.updDrive d fun x => g (f x) := by
  simp [Work.updDrive]

/-! ### Two updates that agree -/

theorem updDesk_congr (w : Work) (d : DeskNo) (f g : Desk → Desk) (h : f (w.desk d) = g (w.desk d)) :
    w.updDesk d f = w.updDesk d g := by
  unfold Work.desk at h
  simp only [Work.updDesk, h]

theorem updLine_congr (w : Work) (l : LineId) (f g : Line → Line) (h : f (w.line l) = g (w.line l)) :
    w.updLine l f = w.updLine l g := by
  unfold Work.line at h
  simp only [Work.updLine, h]

theorem updDrive_congr (w : Work) (d : DriveId) (f g : Drive → Drive) (h : f (w.drive d) = g (w.drive d)) :
    w.updDrive d f = w.updDrive d g := by
  unfold Work.drive at h
  simp only [Work.updDrive, h]

theorem updBuffer_congr (w : Work) (b : BufId) (f g : Buffer → Buffer) (h : f (w.buffer b) = g (w.buffer b)) :
    w.updBuffer b f = w.updBuffer b g := by
  unfold Work.buffer at h
  simp only [Work.updBuffer, h]

theorem updLine_self (w : Work) (l : LineId) (f : Line → Line) (h : f (w.line l) = w.line l) : w.updLine l f = w := by
  unfold Work.line at h
  simp only [Work.updLine, h]
  simp

theorem updDrive_self (w : Work) (d : DriveId) (f : Drive → Drive) (h : f (w.drive d) = w.drive d) :
    w.updDrive d f = w := by
  unfold Work.drive at h
  simp only [Work.updDrive, h]
  simp

/-! ### Updates of different tables -/

theorem updLine_updDesk (w : Work) (d : DeskNo) (f : Desk → Desk) (l : LineId) (g : Line → Line) :
    (w.updDesk d f).updLine l g = (w.updLine l g).updDesk d f := rfl

theorem updDrive_updDesk (w : Work) (d : DeskNo) (f : Desk → Desk) (e : DriveId) (g : Drive → Drive) :
    (w.updDesk d f).updDrive e g = (w.updDrive e g).updDesk d f := rfl

theorem setHandle_updDesk (w : Work) (d : DeskNo) (f : Desk → Desk) (h : HandleIx) (x : Option Handle) :
    (w.updDesk d f).setHandle h x = (w.setHandle h x).updDesk d f := rfl

theorem setEntry_updDesk (w : Work) (d : DeskNo) (f : Desk → Desk) (q : QSlot) (x : Option Entry) :
    (w.updDesk d f).setEntry q x = (w.setEntry q x).updDesk d f := rfl

/-! ### An entry of a table that is as it was -/

theorem drive_of_drives {w w' : Work} (h : w'.drives = w.drives) (d : DriveId) : w'.drive d = w.drive d := by
  simp [Work.drive, h]

theorem entry_of_queue {w w' : Work} (h : w'.queue = w.queue) (q : QSlot) : w'.entry q = w.entry q := by
  simp [Work.entry, h]

theorem desk_of_desks {w w' : Work} (h : w'.desks = w.desks) (d : DeskNo) : w'.desk d = w.desk d := by
  simp [Work.desk, h]

theorem handle_of_handles {w w' : Work} (h : w'.handles = w.handles) (i : HandleIx) : w'.handle i = w.handle i := by
  simp [Work.handle, h]

theorem line_of_lines {w w' : Work} (h : w'.lines = w.lines) (l : LineId) : w'.line l = w.line l := by
  simp [Work.line, h]

theorem buffer_of_buffers {w w' : Work} (h : w'.buffers = w.buffers) (b : BufId) : w'.buffer b = w.buffer b := by
  simp [Work.buffer, h]

end Sys2Proof.Machine
end

