-- ==== Sys2Proof/Laws/Intake.lean ====
section
/-! SUPPORT. What Intake does with a frame, said once: which frames reach their own checks, and what a reply does. -/

namespace Sys2Proof.Machine

open Sys2Proof

/-! ### A reply -/

/-- A reply to a PRESENT desk enters its line's transmit queue. -/
theorem sendReply_present (w : Work) (d : DeskNo) (r : Reply) (h : (w.desk d).presence = .present) :
    w.sendReply d r = w.withReply d r := by
  simp [Work.sendReply, Work.withReply, h]

/-- A reply to a desk that is not PRESENT is discarded. -/
theorem sendReply_discarded (w : Work) (d : DeskNo) (r : Reply) (h : (w.desk d).presence ≠ .present) :
    w.sendReply d r = w := by
  simp [Work.sendReply, h]

/-- A reply that ends the outstanding request of a PRESENT desk. -/
theorem produceReply_present (w : Work) (d : DeskNo) (r : Reply) (h : (w.desk d).presence = .present) :
    w.produceReply d r = (w.updDesk d fun k => { k with outstanding := none }).withReply d r := by
  rw [Work.produceReply, sendReply_present]
  simp [h]

/-- A desk with nothing outstanding is not changed by clearing its outstanding request. -/
theorem clear_outstanding (w : Work) (d : DeskNo) (h : (w.desk d).outstanding = none) :
    (w.updDesk d fun k => { k with outstanding := none }) = w := by
  apply updDesk_self
  cases hk : w.desk d
  simp_all

/-- Taking a request and replying to it leaves the desk record as it was. -/
theorem setOutstanding_cleared (w : Work) (f : Frame) (h : (w.desk f.env.desk).outstanding = none) :
    ((w.setOutstanding f).updDesk f.env.desk fun k => { k with outstanding := none }) = w := by
  rw [Work.setOutstanding, updDesk_updDesk]
  exact clear_outstanding w f.env.desk h

/-- A request answered on the work it was taken in leaves its reply and nothing else. -/
theorem produceReply_taken (w : Work) (f : Frame) (r : Reply) (h : (w.desk f.env.desk).outstanding = none)
    (hp : (w.desk f.env.desk).presence = .present) :
    (w.setOutstanding f).produceReply f.env.desk r = w.withReply f.env.desk r := by
  rw [produceReply_present, setOutstanding_cleared w f h]
  simp [Work.setOutstanding, hp]

/-- A request answered on the work it was taken in, from a desk that is not PRESENT, leaves nothing. -/
theorem produceReply_taken_discarded (w : Work) (f : Frame) (r : Reply) (h : (w.desk f.env.desk).outstanding = none)
    (hp : (w.desk f.env.desk).presence ≠ .present) :
    (w.setOutstanding f).produceReply f.env.desk r = w := by
  rw [Work.produceReply, setOutstanding_cleared w f h, sendReply_discarded w _ _ hp]

/-- An OK answer at intake, on the work the request was taken in. -/
theorem replyOk_taken (w : Work) (env : Envelope) (req : Request) (k : ReqKind) (body : ReplyBody)
    (h : (w.desk env.desk).outstanding = none) (hp : (w.desk env.desk).presence = .present) :
    (w.setOutstanding ⟨env, req⟩).replyOk env k body = w.withReply env.desk (okReply k env body) :=
  produceReply_taken w ⟨env, req⟩ _ h hp

/-- A refusal at intake, of a request other than LIST. -/
theorem refuse_taken (w : Work) (env : Envelope) (req : Request) (k : ReqKind) (code : ResultCode)
    (h : (w.desk env.desk).outstanding = none) (hp : (w.desk env.desk).presence = .present) (hk : k ≠ .list) :
    (w.setOutstanding ⟨env, req⟩).refuse env k code = w.withReply env.desk (refusal k env code) := by
  have e : (w.setOutstanding ⟨env, req⟩).refuse env k code
      = (w.setOutstanding ⟨env, req⟩).produceReply env.desk ⟨some k, env.tag, code, refusalBody (some k)⟩ := rfl
  rw [e, produceReply_taken w ⟨env, req⟩ _ h hp]
  simp [refusal, refusalBody, hk]

/-! ### A frame -/

/-- A frame that Intake hears is taken. -/
theorem handFrame_heard (f : Frame) (s : State) (h : Heard s f.env.desk) :
    handFrame f s = s.with (intake s.cfg s.work f) := by
  obtain ⟨he, ht, hr⟩ := h
  simp [handFrame, complete, he, ht, hr, Config.intakeRoom]

/-- While the part is RESTARTING a frame changes nothing. -/
theorem handFrame_restarting (f : Frame) (s : State) (h : s.work.restarting = true) : handFrame f s = .next s := by
  simp [handFrame, complete, h, State.with]

/-- A frame from a disabled line changes nothing. -/
theorem handFrame_disabled (f : Frame) (s : State) (h : (s.work.line (lineOf f.env.desk)).enabled = false) :
    handFrame f s = .next s := by
  simp [handFrame, h]

/-- A served request reaches its own checks as the desk's outstanding request. -/
theorem handFrame_served (f : Frame) (k : ReqKind) (s : State) (hk : kindOf f.req = some k) (hc : f.req ≠ .cancel)
    (h : Served s f.env.desk k) :
    handFrame f s = s.with (serve s.cfg (s.work.setOutstanding f) f.env f.req) := by
  obtain ⟨hh, _, ho, hm⟩ := h
  rw [handFrame_heard f s hh]
  simp [intake, hc, ho, Work.accept, hk, hm]

/-- A command of a desk is its frame handed over. -/
theorem exec_frame (c : Instr) (f : Frame) (s : State) (h : frameOf c = some f) : exec c s = handFrame f s := by
  cases c <;> simp only [frameOf, Option.some.injEq, reduceCtorEq] at h <;> subst h <;> rfl

end Sys2Proof.Machine
end

