-- ==== Sys2Proof/Laws/Settle.lean ====
section
/-! SUPPORT. What comes at once after an event, said once: a property that each effect keeps is kept by all of them; and
what the end of an eviction flush and the queue operations of a drive do. -/

namespace Sys2Proof.Machine

open Sys2Proof

/-! ### Settling -/

/-- A property that one effect keeps is kept by any number of rounds. -/
theorem settleFor_preserves (P : Work → Prop) (cfg : Cfg)
    (h : ∀ w w', P w → settleOne cfg w = some w' → P w') : ∀ (n : Nat) (w : Work), P w → P (settleFor cfg n w)
  | 0, _, hw => hw
  | n + 1, w, hw => by
    simp only [settleFor]
    split
    · rename_i w' hs
      exact settleFor_preserves P cfg h n w' (h w w' hw hs)
    · exact hw

/-- A property that one effect keeps is kept by everything that comes at once. -/
theorem settle_preserves (P : Work → Prop) (cfg : Cfg) (h : ∀ w w', P w → settleOne cfg w = some w' → P w') (w : Work)
    (hw : P w) : P (settle cfg w) := settleFor_preserves P cfg h Config.settleRounds w hw

/-- Nothing comes at once where no effect is due. -/
theorem settle_of_none (cfg : Cfg) (w : Work) (h : settleOne cfg w = none) : settle cfg w = w := by
  simp [settle, Config.settleRounds, settleFor, h]

/-- One effect is one of the five kinds, each the work of the first party that can go on. -/
theorem settleOne_cases (cfg : Cfg) (w w' : Work) (h : settleOne cfg w = some w') :
    (∃ d, w.advance d = some w') ∨ (∃ d, w.stepMount d = some w') ∨ (∃ b, w.stepReloc b = some w') ∨
      w.stepChannel cfg = some w' ∨ ∃ d, w.stepDrive cfg d = some w' := by
  unfold settleOne at h
  rcases Option.or_eq_some_iff.mp h with h | ⟨_, h⟩
  · obtain ⟨d, _, hd⟩ := List.exists_of_findSome?_eq_some h
    exact Or.inl ⟨d, hd⟩
  rcases Option.or_eq_some_iff.mp h with h | ⟨_, h⟩
  · obtain ⟨d, _, hd⟩ := List.exists_of_findSome?_eq_some h
    exact Or.inr (Or.inl ⟨d, hd⟩)
  rcases Option.or_eq_some_iff.mp h with h | ⟨_, h⟩
  · obtain ⟨b, _, hb⟩ := List.exists_of_findSome?_eq_some h
    exact Or.inr (Or.inr (Or.inl ⟨b, hb⟩))
  rcases Option.or_eq_some_iff.mp h with h | ⟨_, h⟩
  · exact Or.inr (Or.inr (Or.inr (Or.inl h)))
  · obtain ⟨d, _, hd⟩ := List.exists_of_findSome?_eq_some h
    exact Or.inr (Or.inr (Or.inr (Or.inr ⟨d, hd⟩)))

/-! ### The end of an eviction flush -/

/-- Sending the party of an eviction flush to a place moves that party alone, or changes nothing. -/
theorem sendEvictor_cases (w : Work) (o : Origin) (a : RelocPlace) :
    w.sendEvictor o a = w ∨ ∃ p : Party, p.origin = o ∧ w.sendEvictor o a = w.setAwait p a := by
  unfold Work.sendEvictor
  repeat' split
  all_goals first
    | exact Or.inl rfl
    | exact Or.inr ⟨.request _, rfl, rfl⟩
    | exact Or.inr ⟨.mount _, rfl, rfl⟩
    | exact Or.inr ⟨.relocation _, rfl, rfl⟩

/-- An eviction flush that leaves nothing to relocate sends its party to obtain a buffer afresh. -/
theorem flushDone_of_clean (w : Work) (b : BufId) (o : Origin) (h : (w.buffer b).pending = []) :
    w.flushDone b o = w.wake o := by simp [Work.flushDone, Work.wake, h]

/-- One that leaves sectors to relocate has its party wait for that buffer. -/
theorem flushDone_of_pending (w : Work) (b : BufId) (o : Origin) (h : (w.buffer b).pending ≠ []) :
    w.flushDone b o = w.sendEvictor o (.draining b) := by simp [Work.flushDone, h]

/-! ### Repetition -/

/-- A property that each turn of a repetition keeps is kept by the whole. -/
theorem each_preserves {α : Type} (P : Work → Prop) (f : α → Work → Work) : ∀ (xs : List α) (w : Work), P w →
    (∀ x ∈ xs, ∀ w, P w → P (f x w)) → P (w.each xs f)
  | [], _, hw, _ => hw
  | x :: xs, w, hw, h =>
    each_preserves P f xs (f x w) (h x (List.mem_cons_self ..) w hw) fun y hy => h y (List.mem_cons_of_mem _ hy)

/-! ### The queues of a drive -/

/-- R147: an operation queued stands behind those queued before it. -/
theorem queued_append (dr : Drive) (op : Op) (h : dr.ops.length < 16 → dr.appendWait = []) :
    (dr.append op).queued = dr.queued ++ [op] := by
  by_cases hl : dr.ops.length < 16
  · simp [Drive.append, Drive.queued, Config.opQueueSize, hl, h hl]
  · simp [Drive.append, Drive.queued, Config.opQueueSize, hl]

/-- R145: an operation queued leaves at most 16 in the operation queue. -/
theorem append_length (dr : Drive) (op : Op) (h : dr.ops.length ≤ 16) : (dr.append op).ops.length ≤ 16 := by
  by_cases hl : dr.ops.length < 16
  · simp only [Drive.append, Config.opQueueSize, hl, if_true, List.length_append, List.length_cons, List.length_nil]
    omega
  · simp [Drive.append, Config.opQueueSize, hl, h]

/-- R147: the queue takes from the wait list in order, and loses nothing. -/
theorem queued_refill (dr : Drive) : dr.refill.queued = dr.queued := by
  simp [Drive.refill, Drive.queued, List.append_assoc, List.take_append_drop]

/-- R145: a refilled queue holds at most 16. -/
theorem refill_length (dr : Drive) (h : dr.ops.length ≤ 16) : dr.refill.ops.length ≤ 16 := by
  simp only [Drive.refill, Config.opQueueSize, List.length_append, List.length_take]
  omega

end Sys2Proof.Machine
end

