-- ==== Sys2Proof/Laws/Requests.lean ====
section
/-! SUPPORT. The shared checks and steps of the requests, said once: a handle named by a request (R49, R73), the refusal by a
drive and its volume (R42, R50), a request that is queued (R109, R110), the end of a queued request (R118), the end of an
operation (R148), the admission of a notice (R120) and a staging release under a FILE (R136). -/

namespace Sys2Proof.Machine

open Sys2Proof

/-! ### A handle -/

/-- The entry of a handle number in range. -/
theorem handleOf_number (h : HandleIx) : handleOf (h.val + 1) = some h := by
  have hv : 1 ≤ h.val + 1 ∧ h.val + 1 ≤ 48 := by omega
  simp [handleOf, hv]

/-- A number outside 1 to 48 names no handle. -/
theorem handleOf_bad (n : Nat) (h : n = 0 ∨ 48 < n) : handleOf n = none := by
  have hv : ¬ (1 ≤ n ∧ n ≤ 48) := by omega
  simp [handleOf, hv]

/-- A request of the desk's own handle that is not DEFUNCT goes on to its own checks. -/
theorem withHandle_own (w : Work) (env : Envelope) (k : ReqKind) (h : HandleIx) (hd : Handle)
    (go : HandleIx → Handle → Work) (hh : w.handle h = some hd) (hdesk : hd.desk = env.desk)
    (hs : ∀ c, hd.state ≠ .defunct c) : w.withHandle env k (h.val + 1) true go = go h hd := by
  cases hst : hd.state with
  | defunct c => exact absurd hst (hs c)
  | live => simp [Work.withHandle, handleOf_number, hh, hdesk, hst]
  | frozen => simp [Work.withHandle, handleOf_number, hh, hdesk, hst]

/-- A request of a DEFUNCT handle is answered with the cause, or with OK in a CLOSE, and frees it. -/
theorem withHandle_defunct (w : Work) (env : Envelope) (k : ReqKind) (h : HandleIx) (hd : Handle) (c : Cause)
    (go : HandleIx → Handle → Work) (hh : w.handle h = some hd) (hdesk : hd.desk = env.desk)
    (hs : hd.state = .defunct c) : w.withHandle env k (h.val + 1) true go =
      if k = .close then (w.setHandle h none).replyOk env k .none else (w.setHandle h none).refuse env k (causeResult c) := by
  simp [Work.withHandle, handleOf_number, hh, hdesk, hs, Work.freeEntry]

/-- A request of a handle that is not in use, or of another desk's, is refused. -/
theorem withHandle_foreign (w : Work) (env : Envelope) (k : ReqKind) (h : HandleIx) (go : HandleIx → Handle → Work)
    (hh : (w.handle h).all (·.desk != env.desk) = true) :
    w.withHandle env k (h.val + 1) true go = w.refuse env k .badHandle := by
  cases hx : w.handle h with
  | none => simp [Work.withHandle, handleOf_number, hx]
  | some hd =>
    have hne : hd.desk ≠ env.desk := by simpa [hx] using hh
    simp [Work.withHandle, handleOf_number, hx, hne]

/-! ### A drive and its volume -/

/-- The drive of a number in range. -/
theorem driveOf_val (d : DriveId) : driveOf d.val = some d := by simp [driveOf]

/-- A drive that is enabled and whose volume is present refuses nothing but bad fields. -/
theorem volumeRefusal_present (w : Work) (bad : Bool) (d : DriveId) (he : (w.drive d).enabled = true)
    (hv : (w.drive d).vol.present = true) :
    w.volumeRefusal bad d.val = if bad = true then some .badRequest else none := by
  cases bad <;> simp [Work.volumeRefusal, driveOf_val, firstRefusal, he, hv]

/-! ### The queue -/

/-- R110: the lowest free slot of the queue. -/
theorem freeSlot_eq (w : Work) (q : QSlot) (h : w.entry q = none) (hl : ∀ p, p < q → w.entry p ≠ none) :
    w.freeSlot = some q := by
  unfold Work.freeSlot
  rw [List.find?_eq_some_iff_append]
  refine ⟨by simp [h], (List.finRange 24).take q.val, (List.finRange 24).drop (q.val + 1), ?_, ?_⟩
  · have hq : q.val < (List.finRange 24).length := by simp
    have := (List.take_append_drop q.val (List.finRange 24)).symm
    rw [List.drop_eq_getElem_cons hq] at this
    simpa using this
  · intro p hp
    obtain ⟨i, hi, rfl⟩ := List.mem_take_iff_getElem.mp hp
    have hlt : i < q.val := by
      have := hi
      simp at this
      omega
    have hp' := hl ((List.finRange 24)[i]'(by simp; omega)) (by
      simp [Fin.lt_def, hlt])
    simpa [Option.isSome_iff_ne_none] using hp'

/-- R110: a request that is entered stands in the lowest free slot, waiting, with a new arrival order. -/
theorem enter_eq (w : Work) (env : Envelope) (job : Job) (d : DriveId) (q : QSlot) (h : w.entry q = none)
    (hl : ∀ p, p < q → w.entry p ≠ none) :
    w.enter env job d = { w with nextArrival := w.nextArrival + 1 }.setEntry q
      (some ⟨env.desk, env.tag, job, d, w.nextArrival, (w.drive d).vol == VolState.mounting, none⟩) := by
  simp [Work.enter, freeSlot_eq w q h hl]

/-- R118: a queued request that is replied to leaves the queue, and its desk has nothing outstanding. -/
theorem closeEntry_eq (w : Work) (q : QSlot) (e : Entry) (code : ResultCode) (body : ReplyBody) (h : w.entry q = some e) :
    w.closeEntry q code body = (w.setEntry q none).produceReply e.desk ⟨some (jobKind e.job), e.tag, code, body⟩ := by
  simp [Work.closeEntry, h]

/-! ### The end of an operation -/

/-- R148: the current operation leaves its drive's queue, which is IDLE, and the channel is free if the drive had it. -/
theorem takeOff_spec (w : Work) (d : DriveId) :
    ((w.takeOff d).drive d).mech = .idle ∧
      ((w.takeOff d).drive d).queued = (w.drive d).ops.drop 1 ++ (w.drive d).appendWait ∧
      (w.takeOff d).owner ≠ some d ∧ ∀ c, c ≠ d → (w.takeOff d).drive c = w.drive c := by
  refine ⟨?_, ?_, ?_, ?_⟩
  · simp [Work.takeOff, Drive.refill]
  · simp only [Work.takeOff, drive_updDrive, if_true]
    rw [queued_refill]
    rfl
  · simp only [Work.takeOff, owner_updDrive, owner_release]
    split <;> simp_all
  · intro c hc
    simp only [Work.takeOff, drive_updDrive, if_neg (Ne.symm hc)]
    rfl

/-! ### The admission of a notice -/

/-- R120: to a queue of four frames or more no notice is admitted. -/
theorem admitAll_full (w : Work) (l : LineId) (h : 4 ≤ (w.line l).tx.length) : w.admitAll l = w := by
  have hn : ¬ (w.line l).tx.length ≤ 3 := by omega
  simp [Work.admitAll, Work.admitUpTo, Work.admitOne, Config.admissionRoom, hn]

/-! ### The staging release -/

/-- R136: the map's side of a release under an ACTIVE FILE queues nothing on any drive. -/
theorem releaseBlocks_underFile_queued (w : Work) (d c : DriveId) (blocks : List Nat) :
    ((w.releaseBlocks d blocks true).drive c).queued = (w.drive c).queued := by
  by_cases h : d = c
  · subst h
    simp [Work.releaseBlocks, Work.updMedia, Drive.queued]
  · simp [Work.releaseBlocks, Work.updMedia, h]

end Sys2Proof.Machine
end

