-- ==== Sys2Proof/Laws/Ending.lean ====
section
/-! SUPPORT. How a queued request ends, said once: what it gives up and what that leaves as it was (R117, R123, R127, R149), and
what its reply leaves (R118, R36, R136). -/

namespace Sys2Proof.Machine

open Sys2Proof

/-! ### What giving up keeps -/

/-- What the giving up of a request's operations, wait and buffer leaves as it was: everything but the queues and waits, the
mechanics of the drives, the place of the request's own entry, and the buffers' states; a buffer either stands where it stood or
has become FREE, and no sector's content is lost by it. -/
structure Kept (q : QSlot) (w w' : Work) : Prop where
  handles : w'.handles = w.handles
  lines : w'.lines = w.lines
  desks : w'.desks = w.desks
  nextArrival : w'.nextArrival = w.nextArrival
  drives : ∀ d, (w'.drive d).media = (w.drive d).media ∧ (w'.drive d).vol = (w.drive d).vol ∧
    (w'.drive d).lastLane = (w.drive d).lastLane ∧ (w'.drive d).pointer = (w.drive d).pointer
  others : ∀ p, p ≠ q → w'.entry p = w.entry p
  own : ∀ e, w.entry q = some e → ∃ act, w'.entry q = some { e with active := act } ∧ (e.active = none → act = none) ∧
    ∀ a, e.active = some a → ∃ p, act = some { a with place := p }
  cells : ∀ (b : BufId) (k : Fin 15), ((w'.buffer b).sectors[k]).cell = ((w.buffer b).sectors[k]).cell
  buffers : ∀ b, ((w'.buffer b).state = .free ∧ (w'.buffer b).bare = true) ∨
    ((w'.buffer b).key = (w.buffer b).key ∧ ((w'.buffer b).state = .free ↔ (w.buffer b).state = .free))

/-- A change that touches neither the queue's entries nor the buffers, nor what it must not of the drives. -/
theorem Kept.of_tables (q : QSlot) {w w' : Work} (h : w'.handles = w.handles) (l : w'.lines = w.lines) (k : w'.desks = w.desks)
    (n : w'.nextArrival = w.nextArrival) (e : w'.queue = w.queue) (b : w'.buffers = w.buffers)
    (d : ∀ d, (w'.drive d).media = (w.drive d).media ∧ (w'.drive d).vol = (w.drive d).vol ∧
      (w'.drive d).lastLane = (w.drive d).lastLane ∧ (w'.drive d).pointer = (w.drive d).pointer) : Kept q w w' where
  handles := h
  lines := l
  desks := k
  nextArrival := n
  drives := d
  others p _ := entry_of_queue e p
  own x hx := ⟨x.active, (entry_of_queue e q).trans hx, id, fun a ha => ⟨a.place, ha⟩⟩
  cells x _ := by rw [buffer_of_buffers b x]
  buffers x := .inr (by rw [buffer_of_buffers b x]; exact ⟨rfl, Iff.rfl⟩)

/-- Nothing changed. -/
theorem Kept.refl (q : QSlot) (w : Work) : Kept q w w :=
  Kept.of_tables q rfl rfl rfl rfl rfl rfl fun _ => ⟨rfl, rfl, rfl, rfl⟩

/-- R128: an event of the pool. -/
theorem Kept.poolEvent (q : QSlot) (w : Work) : Kept q w w.poolEvent :=
  Kept.of_tables q rfl rfl rfl rfl rfl rfl fun _ => ⟨rfl, rfl, rfl, rfl⟩

/-- R150: the channel released. -/
theorem Kept.release (q : QSlot) (w : Work) (d : DriveId) : Kept q w (w.release d) :=
  Kept.of_tables q rfl rfl rfl rfl rfl rfl fun _ => ⟨rfl, rfl, rfl, rfl⟩

/-- R128: the wait list left. -/
theorem Kept.leaveWait (q : QSlot) (w : Work) (p : Party) : Kept q w (w.leaveWait p) :=
  Kept.of_tables q rfl rfl rfl rfl rfl rfl fun _ => ⟨rfl, rfl, rfl, rfl⟩

/-- A drive's mechanics and queues changed. -/
theorem Kept.updDrive (q : QSlot) (w : Work) (d : DriveId) (f : Drive → Drive)
    (h : ∀ dr, (f dr).media = dr.media ∧ (f dr).vol = dr.vol ∧ (f dr).lastLane = dr.lastLane ∧ (f dr).pointer = dr.pointer) :
    Kept q w (w.updDrive d f) :=
  Kept.of_tables q rfl rfl rfl rfl rfl rfl fun c => by
    simp only [drive_updDrive]
    split
    · next e => subst e; exact h _
    · exact ⟨rfl, rfl, rfl, rfl⟩

/-- A bare buffer has every sector ABSENT. -/
theorem bare_iff (bu : Buffer) : bu.bare = true ↔ ∀ k : Fin 15, (bu.sectors[k]).cell = .absent := by
  simp [Buffer.bare]

/-- One change after another. -/
theorem Kept.trans {q : QSlot} {a b c : Work} (h : Kept q a b) (k : Kept q b c) : Kept q a c where
  handles := k.handles.trans h.handles
  lines := k.lines.trans h.lines
  desks := k.desks.trans h.desks
  nextArrival := k.nextArrival.trans h.nextArrival
  drives d := by
    obtain ⟨x1, x2, x3, x4⟩ := h.drives d
    obtain ⟨y1, y2, y3, y4⟩ := k.drives d
    exact ⟨y1.trans x1, y2.trans x2, y3.trans x3, y4.trans x4⟩
  others p hp := (k.others p hp).trans (h.others p hp)
  own e he := by
    obtain ⟨act, h1, h2, h3⟩ := h.own e he
    obtain ⟨act', k1, k2, k3⟩ := k.own _ h1
    refine ⟨act', k1, fun hn => k2 (h2 hn), fun x hx => ?_⟩
    obtain ⟨p, hp⟩ := h3 x hx
    obtain ⟨p', hp'⟩ := k3 _ hp
    exact ⟨p', hp'⟩
  cells b s := (k.cells b s).trans (h.cells b s)
  buffers b := by
    rcases k.buffers b with k1 | ⟨k1, k2⟩
    · exact .inl k1
    · rcases h.buffers b with ⟨h1, h2⟩ | ⟨h1, h2⟩
      · refine .inl ⟨k2.mpr h1, ?_⟩
        rw [bare_iff] at h2 ⊢
        intro s
        rw [k.cells]
        exact h2 s
      · exact .inr ⟨k1.trans h1, k2.trans h2⟩

/-- A buffer's state, holder or list changed. -/
theorem Kept.updBuffer (q : QSlot) (w : Work) (b : BufId) (f : Buffer → Buffer)
    (h1 : ∀ bu, (f bu).sectors = bu.sectors) (h2 : ∀ bu, (f bu).key = bu.key)
    (h3 : (f (w.buffer b)).state = .free ↔ (w.buffer b).state = .free) : Kept q w (w.updBuffer b f) where
  handles := rfl
  lines := rfl
  desks := rfl
  nextArrival := rfl
  drives _ := ⟨rfl, rfl, rfl, rfl⟩
  others _ _ := rfl
  own e h := ⟨e.active, h, id, fun a ha => ⟨a.place, ha⟩⟩
  cells c k := by
    simp only [buffer_updBuffer]
    split
    · next h => subst h; simp only [h1]
    · rfl
  buffers c := by
    simp only [buffer_updBuffer]
    split
    · next h => subst h; exact .inr ⟨h2 _, h3⟩
    · exact .inr ⟨rfl, Iff.rfl⟩

/-- R124: the buffers after one became FREE. -/
theorem buffer_freeBuffer (w : Work) (b c : BufId) :
    (w.freeBuffer b).buffer c = if b = c then Buffer.powerOn else w.buffer c := by
  simp [Work.freeBuffer, Work.buffer, Work.poolEvent, Vector.getElem_set, Fin.ext_iff]

/-- R124: a buffer that becomes FREE because nothing is left in it. -/
theorem Kept.tidy (q : QSlot) (w : Work) (b : BufId) : Kept q w (w.tidy b) := by
  unfold Work.tidy
  split
  · next h =>
    obtain ⟨_, _, hb⟩ := h
    rw [bare_iff] at hb
    refine ⟨rfl, rfl, rfl, rfl, fun _ => ⟨rfl, rfl, rfl, rfl⟩, fun _ _ => rfl,
      fun e h => ⟨e.active, h, id, fun a ha => ⟨a.place, ha⟩⟩, ?_, ?_⟩
    · intro c k
      rw [buffer_freeBuffer]
      split
      · next h => subst h; rw [hb]; simp [Buffer.powerOn]
      · rfl
    · intro c
      rw [buffer_freeBuffer]
      split
      · left; simp [bare_iff, Buffer.powerOn]
      · exact .inr ⟨rfl, Iff.rfl⟩
  · exact Kept.refl q w

/-- The request's own place changed. -/
theorem Kept.setPlace (q : QSlot) (w : Work) (p : Place) : Kept q w (w.setPlace q p) where
  handles := rfl
  lines := rfl
  desks := rfl
  nextArrival := rfl
  drives _ := ⟨rfl, rfl, rfl, rfl⟩
  others x hx := by simp [Work.setPlace, Ne.symm hx]
  own e h := by
    exact ⟨e.active.map fun a => { a with place := p }, by simp [Work.setPlace, h], fun hn => by simp [hn],
      fun a ha => ⟨p, by simp [ha]⟩⟩
  cells _ _ := rfl
  buffers _ := .inr ⟨rfl, Iff.rfl⟩

/-- R134: the request whose eviction flush ended. -/
theorem Kept.wake (q : QSlot) (w : Work) : Kept q w (w.wake (.request q)) := by
  simp only [Work.wake, Work.sendEvictor]
  split
  · split
    · exact Kept.setPlace q w _
    · exact Kept.refl q w
  · exact Kept.refl q w

/-- R124: the buffer of a removed operation. -/
theorem Kept.settleBuffer (q : QSlot) (w : Work) (op : Op) : Kept q w (w.settleBuffer op) := by
  unfold Work.settleBuffer
  split
  · split
    · next b hb h =>
      refine ((Kept.updBuffer q w b (fun bu => { bu with state := .ready }) (fun _ => rfl) (fun _ => rfl) ?_).trans
        (Kept.poolEvent q _)).trans (Kept.tidy q _ b)
      rcases h with h | h <;> simp [h]
    · exact Kept.refl q w
  · exact Kept.refl q w

/-- R149: a drive whose current operation is removed keeps its volume and its lanes. -/
theorem halt_kept (dr : Drive) : dr.halt.media = dr.media ∧ dr.halt.vol = dr.vol ∧ dr.halt.lastLane = dr.lastLane ∧
    dr.halt.pointer = dr.pointer := by
  unfold Drive.halt
  split <;> exact ⟨rfl, rfl, rfl, rfl⟩

/-- R149: a transfer aborted. -/
theorem Kept.abort (q : QSlot) (w : Work) (d : DriveId) : Kept q w (w.abort d) := by
  unfold Work.abort
  split
  · exact Kept.release q w d
  · exact Kept.refl q w

/-- A repetition of changes. -/
theorem Kept.each {α : Type} {q : QSlot} {f : α → Work → Work} : ∀ (xs : List α) (w : Work)
    (_ : ∀ x ∈ xs, ∀ w, Kept q w (f x w)), Kept q w (w.each xs f)
  | [], w, _ => Kept.refl q w
  | x :: xs, w, h => (h x (List.mem_cons_self ..) w).trans (Kept.each xs (f x w) fun y hy => h y (List.mem_cons_of_mem _ hy))

/-- R149: operations of the request removed from a drive. -/
theorem Kept.removeOps (q : QSlot) (w : Work) (d : DriveId) (p : Op → Bool) (hp : ∀ op, p op = true → op.origin = .request q) :
    Kept q w (w.removeOps d p) := by
  simp only [Work.removeOps]
  refine Kept.trans (b := (if (w.drive d).current.any p then (w.abort d).updDrive d Drive.halt else w).updDrive d fun dr =>
    Drive.refill { dr with ops := dr.ops.filter (!p ·), appendWait := dr.appendWait.filter (!p ·) }) (Kept.trans ?_
      (Kept.updDrive q _ d _ fun _ => ⟨rfl, rfl, rfl, rfl⟩)) (Kept.each _ _ ?_)
  · split
    · exact (Kept.abort q w d).trans (Kept.updDrive q _ d _ halt_kept)
    · exact Kept.refl q w
  · intro op hop w
    have := hp op (List.mem_filter.mp hop).2
    rw [this]
    exact (Kept.settleBuffer q w op).trans (Kept.wake q _)

/-- R123: its operations that are not transferring removed from every drive. -/
theorem Kept.removeOwn (q : QSlot) (w : Work) : Kept q w (w.removeOwn q) :=
  Kept.each _ _ fun d _ w => Kept.removeOps q w d _ fun op h => by simp_all

/-- R117: operations that go on without an origin. -/
theorem Kept.orphan (q : QSlot) (w : Work) (o : Origin) : Kept q w (w.orphan o) :=
  Kept.each _ _ fun d _ w => Kept.updDrive q w d _ fun _ => ⟨rfl, rfl, rfl, rfl⟩

/-- R127: buffers let go of. -/
theorem Kept.letGo (q : QSlot) (w : Work) (h : Holder) : Kept q w (w.letGo h) :=
  Kept.each _ _ fun b _ w => by
    split
    · exact ((Kept.updBuffer q w b (fun bu => { bu with heldBy := none }) (fun _ => rfl) (fun _ => rfl) Iff.rfl).trans
        (Kept.poolEvent q _)).trans (Kept.tidy q _ b)
    · exact Kept.refl q w

/-- R117: everything that the request holds given up. -/
theorem Kept.giveUp (q : QSlot) (w : Work) : Kept q w (w.giveUp q) :=
  (((Kept.removeOwn q w).trans (Kept.orphan q _ _)).trans (Kept.leaveWait q _ _)).trans (Kept.letGo q _ _)

/-! ### What giving up removes -/

/-- A repetition that changes no drive. -/
theorem each_drives {α : Type} {f : α → Work → Work} : ∀ (xs : List α) (w : Work)
    (_ : ∀ x ∈ xs, ∀ w, (f x w).drives = w.drives), (w.each xs f).drives = w.drives
  | [], _, _ => rfl
  | x :: xs, w, h => (each_drives xs (f x w) fun y hy => h y (List.mem_cons_of_mem _ hy)).trans
    (h x (List.mem_cons_self ..) w)

/-- A repetition that changes no wait list. -/
theorem each_waitList {α : Type} {f : α → Work → Work} : ∀ (xs : List α) (w : Work)
    (_ : ∀ x ∈ xs, ∀ w, (f x w).waitList = w.waitList), (w.each xs f).waitList = w.waitList
  | [], _, _ => rfl
  | x :: xs, w, h => (each_waitList xs (f x w) fun y hy => h y (List.mem_cons_of_mem _ hy)).trans
    (h x (List.mem_cons_self ..) w)

/-- R124: no drive changes as a buffer becomes FREE. -/
theorem tidy_drives (w : Work) (b : BufId) : (w.tidy b).drives = w.drives := by
  unfold Work.tidy; split <;> rfl

/-- R124: nor the wait list. -/
theorem tidy_waitList (w : Work) (b : BufId) : (w.tidy b).waitList = w.waitList := by
  unfold Work.tidy; split <;> rfl

/-- R124: the buffer of a removed operation changes no drive. -/
theorem settleBuffer_drives (w : Work) (op : Op) : (w.settleBuffer op).drives = w.drives := by
  unfold Work.settleBuffer
  split
  · split
    · rw [tidy_drives]; rfl
    · rfl
  · rfl

/-- R134: a request that is to ask again changes no drive. -/
theorem wake_drives (w : Work) (q : QSlot) : (w.wake (.request q)).drives = w.drives := by
  simp only [Work.wake, Work.sendEvictor]
  split
  · split <;> rfl
  · rfl

/-- R149: the operations removed leave their drive's queues, in order, and no other drive's. -/
theorem removeOps_queued (w : Work) (q : QSlot) (d c : DriveId) (p : Op → Bool)
    (hp : ∀ op, p op = true → op.origin = .request q) :
    ((w.removeOps d p).drive c).queued = if d = c then (w.drive c).queued.filter (!p ·) else (w.drive c).queued := by
  simp only [Work.removeOps]
  rw [drive_of_drives (each_drives _ _ fun op hop w => ?_)]
  · simp only [drive_updDrive]
    split
    · next e =>
      subst e
      rw [queued_refill]
      have : ∀ w' : Work, (w'.drive d).queued = (w.drive d).queued →
          Drive.queued { w'.drive d with ops := (w'.drive d).ops.filter (!p ·),
                                         appendWait := (w'.drive d).appendWait.filter (!p ·) } = (w.drive d).queued.filter (!p ·) := by
        intro w' h'
        rw [← h']
        simp [Drive.queued]
      apply this
      split
      · simp only [drive_updDrive, if_true]
        unfold Work.abort
        split <;> (simp only [Drive.halt]; split <;> rfl)
      · rfl
    · next e =>
      split
      · simp only [drive_updDrive, e, if_false]
        unfold Work.abort
        split <;> rfl
      · rfl
  · rw [hp op (List.mem_filter.mp hop).2, wake_drives, settleBuffer_drives]

/-- R123: of a request's operations those that are transferring stay, on every drive. -/
theorem removeOwn_queued (w : Work) (q : QSlot) (c : DriveId) :
    ((w.removeOwn q).drive c).queued = (w.drive c).queued.filter fun op => !(op.origin == .request q && !op.transferring) := by
  have hp : ∀ op : Op, (op.origin == .request q && !op.transferring) = true → op.origin = .request q := by simp_all
  have all : ∀ (xs : List DriveId) (w : Work), ((w.each xs fun d w => w.removeOps d fun op =>
      op.origin == .request q && !op.transferring).drive c).queued = if c ∈ xs then
        (w.drive c).queued.filter fun op => !(op.origin == .request q && !op.transferring) else (w.drive c).queued := by
    intro xs
    induction xs with
    | nil => intro w; rfl
    | cons x xs ih =>
      intro w
      refine (ih _).trans ?_
      rw [removeOps_queued _ q _ _ _ hp]
      by_cases h1 : x = c
      · subst h1
        simp
      · simp [h1, Ne.symm h1]
  rw [Work.removeOwn, all, if_pos (List.mem_finRange c)]

/-- R117: no operation keeps an origin that has gone. -/
theorem orphan_queued (w : Work) (o : Origin) (ho : o ≠ .nobody) (c : DriveId) :
    ∀ op ∈ ((w.orphan o).drive c).queued, op.origin ≠ o := by
  have e : ((w.orphan o).drive c).queued = (w.drive c).queued.map fun op =>
      if op.origin = o then { op with origin := .nobody } else op := by
    simp only [Work.orphan, Work.each, allDrives]
    match c with
    | 0 => simp [List.finRange_succ, Drive.queued]
    | 1 => simp [List.finRange_succ, Drive.queued]
    | 2 => simp [List.finRange_succ, Drive.queued]
    | 3 => simp [List.finRange_succ, Drive.queued]
  rw [e]
  intro op hop
  obtain ⟨x, _, rfl⟩ := List.mem_map.mp hop
  split
  · exact Ne.symm ho
  · assumption

/-- R127: letting go changes no drive. -/
theorem letGo_drives (w : Work) (h : Holder) : (w.letGo h).drives = w.drives :=
  each_drives _ _ fun b _ w => by
    split
    · rw [tidy_drives]; rfl
    · rfl

/-- R127: nor the wait list. -/
theorem letGo_waitList (w : Work) (h : Holder) : (w.letGo h).waitList = w.waitList :=
  each_waitList _ _ fun b _ w => by
    split
    · rw [tidy_waitList]; rfl
    · rfl

/-- R124: a buffer that becomes FREE is held by nobody. -/
theorem tidy_heldBy (w : Work) (b c : BufId) (h : Holder) (hc : (w.buffer c).heldBy ≠ some h) :
    ((w.tidy b).buffer c).heldBy ≠ some h := by
  unfold Work.tidy
  split
  · rw [buffer_freeBuffer]
    split
    · simp [Buffer.powerOn]
    · exact hc
  · exact hc

/-- R127: who let go holds no buffer. -/
theorem letGo_heldBy (w : Work) (h : Holder) (c : BufId) : ((w.letGo h).buffer c).heldBy ≠ some h := by
  have step : ∀ (b : BufId) (w : Work),
      let w' := if (w.buffer b).heldBy = some h then
        ((w.updBuffer b fun bu => { bu with heldBy := none }).poolEvent).tidy b else w
      (w'.buffer b).heldBy ≠ some h ∧ ∀ c, (w.buffer c).heldBy ≠ some h → (w'.buffer c).heldBy ≠ some h := by
    intro b w
    dsimp only
    split
    · refine ⟨tidy_heldBy _ _ _ _ (by simp), fun c hc => tidy_heldBy _ _ _ _ ?_⟩
      simp only [buffer_poolEvent, buffer_updBuffer]
      split
      · simp
      · exact hc
    · next hb => exact ⟨hb, fun c hc => hc⟩
  have all : ∀ (xs : List BufId) (w : Work), (c ∈ xs ∨ (w.buffer c).heldBy ≠ some h) → ((w.each xs fun b w =>
      if (w.buffer b).heldBy = some h then ((w.updBuffer b fun bu => { bu with heldBy := none }).poolEvent).tidy b
      else w).buffer c).heldBy ≠ some h := by
    intro xs
    induction xs with
    | nil => intro w hc; simpa [Work.each] using hc
    | cons x xs ih =>
      intro w hc
      refine ih _ ?_
      rcases hc with hc | hc
      · rcases List.mem_cons.mp hc with rfl | hc
        · exact .inr (step c w).1
        · exact .inl hc
      · exact .inr ((step x w).2 c hc)
  exact all allBuffers w (.inl (List.mem_finRange c))

/-- Nothing of a request is left: no operation, no buffer, no wait. -/
structure GivenUp (q : QSlot) (w : Work) : Prop where
  ops : ∀ d, ∀ op ∈ (w.drive d).queued, op.origin ≠ .request q
  held : ∀ b, (w.buffer b).heldBy ≠ some (.request q)
  wait : Party.request q ∉ w.waitList

/-- R117: after it has given up, nothing of a request is left but its entry. -/
theorem giveUp_givenUp (w : Work) (q : QSlot) : GivenUp q (w.giveUp q) where
  ops d := by
    unfold Work.giveUp
    rw [drive_of_drives (letGo_drives _ _), drive_leaveWait]
    exact orphan_queued _ _ (by simp) d
  held b := letGo_heldBy _ _ b
  wait := by
    unfold Work.giveUp
    rw [letGo_waitList, waitList_leaveWait]
    simp

/-! ### The end of a request -/

/-- What the end of a request leaves. -/
structure Ended (q : QSlot) (e : Entry) (code : ResultCode) (body : ReplyBody) (w w' : Work) : Prop where
  replied : Work.Replied w q e code body w'
  others : ∀ p, p ≠ q → w'.entry p = w.entry p
  givenUp : GivenUp q w'
  handles : w'.handles = w.handles
  nextArrival : w'.nextArrival = w.nextArrival
  drives : ∀ d, (w'.drive d).vol = (w.drive d).vol ∧ (w'.drive d).lastLane = (w.drive d).lastLane ∧
    (w'.drive d).pointer = (w.drive d).pointer
  media : ∀ d, (w'.drive d).media = match e.job, e.active with
    | .kill slug, some _ => if e.drive = d then (w.drive d).media.map fun m =>
        match m.lookup slug with
        | .filed i st _ => m.setSlot i (.filed st none)
        | .reserved _ _ | .damaged _ | .none => m
      else (w.drive d).media
    | _, _ => (w.drive d).media
  cells : ∀ (b : BufId) (k : Fin 15), ((w'.buffer b).sectors[k]).cell = ((w.buffer b).sectors[k]).cell

/-- A change of catalogues and operation queues alone, where only label writes are queued. -/
structure SideChange (q : QSlot) (w w' : Work) : Prop where
  desks : w'.desks = w.desks
  lines : w'.lines = w.lines
  queue : w'.queue = w.queue
  handles : w'.handles = w.handles
  buffers : w'.buffers = w.buffers
  waitList : w'.waitList = w.waitList
  nextArrival : w'.nextArrival = w.nextArrival
  drives : ∀ d, (w'.drive d).vol = (w.drive d).vol ∧ (w'.drive d).lastLane = (w.drive d).lastLane ∧
    (w'.drive d).pointer = (w.drive d).pointer
  ops : ∀ d, ∀ op ∈ (w'.drive d).queued, op ∈ (w.drive d).queued ∨ op.origin = .labelWrite

/-- R147: an operation queued changes no volume and no lane. -/
theorem append_kept (dr : Drive) (op : Op) : (dr.append op).media = dr.media ∧ (dr.append op).vol = dr.vol ∧
    (dr.append op).lastLane = dr.lastLane ∧ (dr.append op).pointer = dr.pointer := by
  unfold Drive.append
  dsimp only
  split <;> exact ⟨rfl, rfl, rfl, rfl⟩

/-- R147: what stands in the queues after an operation was queued. -/
theorem mem_queued_append (dr : Drive) (op x : Op) (h : x ∈ (dr.append op).queued) : x ∈ dr.queued ∨ x = op := by
  simp only [Drive.append, Drive.queued] at h ⊢
  split at h <;> simp at h ⊢ <;> grind

/-- R26: a housekeeping label write queued. -/
theorem queueLabel_side (q : QSlot) (w : Work) (d : DriveId) : SideChange q w (w.queueLabel d) ∧
    ∀ c, ((w.queueLabel d).drive c).media = (w.drive c).media := by
  unfold Work.queueLabel
  split
  · exact ⟨⟨rfl, rfl, rfl, rfl, rfl, rfl, rfl, fun _ => ⟨rfl, rfl, rfl⟩, fun _ _ h => .inl h⟩, fun _ => rfl⟩
  · refine ⟨⟨rfl, rfl, rfl, rfl, rfl, rfl, rfl, fun c => ?_, fun c x hx => ?_⟩, fun c => ?_⟩
    · simp only [drive_append]
      split
      · next e => subst e; exact (append_kept _ _).2
      · exact ⟨rfl, rfl, rfl⟩
    · simp only [drive_append] at hx
      split at hx
      · next e =>
        subst e
        rcases mem_queued_append _ _ _ hx with h | h
        · exact .inl h
        · exact .inr (by rw [h])
      · exact .inl hx
    · simp only [drive_append]
      split
      · next e => subst e; exact (append_kept _ _).1
      · rfl

/-- R136: what an ending FILE leaves to a label write. -/
theorem leaveAdditions_side (q : QSlot) (w : Work) (e : Entry) : SideChange q w (w.leaveAdditions e) ∧
    ∀ c, ((w.leaveAdditions e).drive c).media = (w.drive c).media := by
  have same : SideChange q w w ∧ ∀ c, (w.drive c).media = (w.drive c).media :=
    ⟨⟨rfl, rfl, rfl, rfl, rfl, rfl, rfl, fun _ => ⟨rfl, rfl, rfl⟩, fun _ _ h => .inl h⟩, fun _ => rfl⟩
  unfold Work.leaveAdditions
  split
  · split
    · exact queueLabel_side q w _
    · exact same
  · exact same

/-- R36, R40: the kill-pending mark of an ACTIVE KILL that ends. -/
theorem unmarkEntry_side (q : QSlot) (w : Work) (e : Entry) : SideChange q w (w.unmarkEntry e) ∧
    ∀ d, ((w.unmarkEntry e).drive d).media = match e.job, e.active with
    | .kill slug, some _ => if e.drive = d then (w.drive d).media.map fun m =>
        match m.lookup slug with
        | .filed i st _ => m.setSlot i (.filed st none)
        | .reserved _ _ | .damaged _ | .none => m
      else (w.drive d).media
    | _, _ => (w.drive d).media := by
  have same : SideChange q w w ∧ ∀ c, (w.drive c).media = (w.drive c).media :=
    ⟨⟨rfl, rfl, rfl, rfl, rfl, rfl, rfl, fun _ => ⟨rfl, rfl, rfl⟩, fun _ _ h => .inl h⟩, fun _ => rfl⟩
  rcases e with ⟨dk, tg, job, dr, ar, tm, active⟩
  cases job <;> cases active <;> try exact same
  simp only [Work.unmarkEntry]
  refine ⟨⟨rfl, rfl, rfl, rfl, rfl, rfl, rfl, fun c => ?_, fun c x hx => ?_⟩, fun c => ?_⟩
  · simp only [Work.clearKillMark, drive_updMedia]
    split
    · next e => subst e; exact ⟨rfl, rfl, rfl⟩
    · exact ⟨rfl, rfl, rfl⟩
  · simp only [Work.clearKillMark, drive_updMedia] at hx
    split at hx
    · next e => subst e; exact .inl hx
    · exact .inl hx
  · simp only [Work.clearKillMark, drive_updMedia]
    split
    · next e => subst e; rfl
    · rfl

/-- R117, R118: what the end of a request does, for a desk that is PRESENT. -/
theorem endRequest_ended (w : Work) (q : QSlot) (e : Entry) (code : ResultCode) (body : ReplyBody) (he : w.entry q = some e)
    (hp : (w.desk e.desk).presence = .present) : Ended q e code body w (w.endRequest q code body) := by
  have k := Kept.giveUp q w
  have b := giveUp_givenUp w q
  obtain ⟨u, um⟩ := unmarkEntry_side q (w.giveUp q) e
  obtain ⟨l, lm⟩ := leaveAdditions_side q ((w.giveUp q).unmarkEntry e) e
  obtain ⟨act, ha, -, -⟩ := k.own e he
  generalize hw1 : w.giveUp q = w1 at *
  generalize hw2 : w1.unmarkEntry e = w2 at *
  generalize hw3 : w2.leaveAdditions e = w3 at *
  have hd : ∀ x, w3.desk x = w.desk x := fun x => by
    unfold Work.desk; rw [l.desks, u.desks, k.desks]
  have he3 : w3.entry q = some { e with active := act } := by
    unfold Work.entry at ha ⊢; rw [l.queue, u.queue]; exact ha
  have hw : w.endRequest q code body =
      ((w3.setEntry q none).updDesk e.desk fun k => { k with outstanding := none }).withReply e.desk
        ⟨some (jobKind e.job), e.tag, code, body⟩ := by
    simp only [Work.endRequest, he, hw1, hw2, hw3]
    rw [closeEntry_eq w3 q _ code body he3, produceReply_present]
    simp [hd, hp]
  rw [hw]
  constructor
  · refine ⟨by simp [Work.withReply], by simp [Work.withReply], ?_⟩
    simp only [Work.withReply, line_updLine, if_true, line_updDesk, line_setEntry]
    unfold Work.line; rw [l.lines, u.lines, k.lines]
  · intro p hpq
    simp only [Work.withReply, entry_updLine, entry_updDesk, entry_setEntry, if_neg (Ne.symm hpq)]
    rw [← k.others p hpq]
    unfold Work.entry; rw [l.queue, u.queue]
  · constructor
    · intro d op hop
      have hop' : op ∈ (w3.drive d).queued := hop
      rcases l.ops d op hop' with h | h
      · rcases u.ops d op h with h | h
        · exact b.ops d op h
        · simp [h]
      · simp [h]
    · intro x
      have := b.held x
      unfold Work.buffer at this ⊢
      show w3.buffers[x].heldBy ≠ _
      rw [l.buffers, u.buffers]; exact this
    · show _ ∉ w3.waitList
      rw [l.waitList, u.waitList]; exact b.wait
  · show w3.handles = _
    rw [l.handles, u.handles, k.handles]
  · show w3.nextArrival = _
    rw [l.nextArrival, u.nextArrival, k.nextArrival]
  · intro d
    show (w3.drive d).vol = _ ∧ (w3.drive d).lastLane = _ ∧ (w3.drive d).pointer = _
    obtain ⟨l1, l2, l3⟩ := l.drives d
    obtain ⟨u1, u2, u3⟩ := u.drives d
    obtain ⟨-, k1, k2, k3⟩ := k.drives d
    exact ⟨l1.trans (u1.trans k1), l2.trans (u2.trans k2), l3.trans (u3.trans k3)⟩
  · intro d
    show (w3.drive d).media = _
    rw [lm, um, (k.drives d).1]
  · intro x y
    rw [← k.cells x y]
    show (w3.buffers[x]).sectors[y].cell = _
    rw [l.buffers, u.buffers]; rfl

/-! ### A CANCEL -/

/-- R123: whether an operation of the request is transferring. -/
theorem ownTransfer_iff (w : Work) (q : QSlot) : w.ownTransfer q = true ↔
    ∃ d, ∃ op ∈ (w.drive d).queued, op.origin = .request q ∧ op.transferring = true := by
  simp [Work.ownTransfer]

/-- R118: a reply to an entry that differs in its ACTIVE fields alone is the same reply. -/
theorem replied_of {w w0 w' : Work} {q : QSlot} {e e' : Entry} {code body}
    (h : Work.Replied w q e code body w') (hd : e'.desk = e.desk)
    (hj : e'.job = e.job) (ht : e'.tag = e.tag) (hl : w0.lines = w.lines) : Work.Replied w0 q e' code body w' := by
  obtain ⟨h1, h2, h3⟩ := h
  refine ⟨h1, hd ▸ h2, ?_⟩
  rw [hd, hj, ht, h3]
  simp [Work.withReply, line_of_lines hl]

/-- R110: the cancel noted mark is set in one entry. -/
theorem noteCancel_entry (w : Work) (q p : QSlot) : (w.noteCancel q).entry p = if q = p then
    (w.entry q).map fun e => { e with active := e.active.map fun a => { a with cancelNoted := true } } else w.entry p := by
  simp [Work.noteCancel]

end Sys2Proof.Machine
end

