-- ==== Sys2Proof/Laws/SetBack.lean ====
section
/-! SUPPORT. A WRITE set back, said once (R60): the drop of a block's sector (R135), the block returned, and the tail zeroed. -/

namespace Sys2Proof.Machine

open Sys2Proof

/-! ### The buffers -/

/-- R135: a drop changes buffers alone. -/
theorem dropSector_frame (w : Work) (b : BufId) (k : Fin 15) : (w.dropSector b k).drives = w.drives ∧
    (w.dropSector b k).desks = w.desks ∧ (w.dropSector b k).lines = w.lines ∧ (w.dropSector b k).queue = w.queue ∧
    (w.dropSector b k).handles = w.handles := by
  unfold Work.dropSector Work.giveUpSector Work.tidy
  dsimp only
  split <;> split <;> exact ⟨rfl, rfl, rfl, rfl, rfl⟩

/-- R124: buffers that stand where they stood, or have become FREE with nothing in them. -/
def BuffersStand (w w' : Work) : Prop := ∀ c, ((w'.buffer c).state = .free ∧ (w'.buffer c).bare = true) ∨
  ((w'.buffer c).key = (w.buffer c).key ∧ ((w'.buffer c).state = .free ↔ (w.buffer c).state = .free))

/-- R128 step 1: the buffer found holds the track-side. -/
theorem bufferOf_some (w : Work) (key : TrackKey) (b : BufId) (h : w.bufferOf key = some b) :
    (w.buffer b).state ≠ .free ∧ (w.buffer b).key = some key := by
  have := List.find?_some h
  simpa using this

/-- R128 step 1: a buffer that stands with content in it is still the one found for its track-side. -/
theorem BuffersStand.bufferOf {w w' : Work} (h : BuffersStand w w') {key : TrackKey} {b : BufId} {k : Fin 15}
    (hb : w.bufferOf key = some b) (hc : ((w'.buffer b).sectors[k]).cell ≠ .absent) : w'.bufferOf key = some b := by
  unfold Work.bufferOf at hb ⊢
  rw [List.find?_eq_some_iff_append] at hb ⊢
  obtain ⟨hm, as, bs, hl, hn⟩ := hb
  refine ⟨?_, as, bs, hl, fun a ha => ?_⟩
  · rcases h b with ⟨_, h1⟩ | ⟨h1, h2⟩
    · exact absurd ((bare_iff _).mp h1 k) hc
    · simp only [Bool.and_eq_true, bne_iff_ne, ne_eq, beq_iff_eq] at hm ⊢
      exact ⟨fun x => hm.1 (h2.mp x), h1.trans hm.2⟩
  · have ha' := hn a ha
    simp only [Bool.not_eq_true', Bool.and_eq_false_iff, bne_eq_false_iff_eq, beq_eq_false_iff_ne] at ha' ⊢
    rcases h a with ⟨h1, _⟩ | ⟨h1, h2⟩
    · exact .inl h1
    · rcases ha' with x | x
      · exact .inl (h2.mpr x)
      · exact .inr (by rw [h1]; exact x)

/-- Giving up leaves the buffers standing. -/
theorem Kept.stand {q : QSlot} {w w' : Work} (h : Kept q w w') : BuffersStand w w' := h.buffers

/-- One change after another, of which the second fills no sector. -/
theorem BuffersStand.trans {a b c : Work} (h : BuffersStand a b) (k : BuffersStand b c)
    (hc : ∀ x (s : Fin 15), ((b.buffer x).sectors[s]).cell = .absent →
    ((c.buffer x).sectors[s]).cell = .absent) : BuffersStand a c := by
  intro x
  rcases k x with k1 | ⟨k1, k2⟩
  · exact .inl k1
  · rcases h x with ⟨h1, h2⟩ | ⟨h1, h2⟩
    · refine .inl ⟨k2.mpr h1, ?_⟩
      rw [bare_iff] at h2 ⊢
      exact fun s => hc x s (h2 s)
    · exact .inr ⟨k1.trans h1, k2.trans h2⟩

/-- R135: a drop makes one sector ABSENT and no other. -/
theorem dropSector_buffers (w : Work) (b : BufId) (k : Fin 15) (hb : (w.buffer b).state ≠ .free) :
    (∀ c j, ((w.dropSector b k).buffer c).sectors[(j : Fin 15)].cell =
      if c = b ∧ j = k then .absent else ((w.buffer c).sectors[j]).cell) ∧ BuffersStand w (w.dropSector b k) := by
  have h := Kept.tidy 0 (w.giveUpSector b k ((w.buffer b).pending.erase k)) b
  obtain ⟨st, hst, e⟩ : ∃ st : BufState, st ≠ .free ∧ ∀ c, (w.giveUpSector b k ((w.buffer b).pending.erase k)).buffer c =
      if b = c then { (w.buffer b).put k ⟨.absent, false⟩ with pending := (w.buffer b).pending.erase k, state := st }
      else w.buffer c := by
    unfold Work.giveUpSector
    dsimp only
    split
    · exact ⟨.ready, by simp, fun c => by simp⟩
    · exact ⟨(w.buffer b).state, hb, fun c => by simp⟩
  have hc : ∀ c j, ((w.giveUpSector b k ((w.buffer b).pending.erase k)).buffer c).sectors[(j : Fin 15)].cell =
      if c = b ∧ j = k then .absent else ((w.buffer c).sectors[j]).cell := by
    intro c j
    rw [e]
    by_cases h1 : b = c
    · subst h1
      by_cases h2 : j = k
      · subst h2; simp [Buffer.put]
      · have h3 : ¬ k.val = j.val := fun x => h2 (Fin.ext x.symm)
        simp [Buffer.put, h2, h3]
    · simp [h1, Ne.symm h1]
  have hs : BuffersStand w (w.giveUpSector b k ((w.buffer b).pending.erase k)) := by
    intro c
    rw [e]
    by_cases h1 : b = c
    · subst h1
      refine .inr ⟨by simp [Buffer.put], ?_⟩
      simp [hst, hb]
    · simp [h1]
  refine ⟨fun c j => (h.cells c j).trans (hc c j), hs.trans h.stand fun x s hx => ?_⟩
  rw [← hx]; exact h.cells x s

/-! ### The block returned and the tail zeroed -/

/-- R135: the drop of one block. -/
theorem dropBlocks_one (w : Work) (d : DriveId) (sides block : Nat) :
    w.dropBlocks d sides [block] = match w.sectorOf d sides block with
      | some (b, s) => if s.cell.isDirty then w.dropSector b (blockSector block) else w
      | none => w := rfl

/-- R135: it changes buffers alone. -/
theorem dropBlocks_one_frame (w : Work) (d : DriveId) (sides block : Nat) :
    (w.dropBlocks d sides [block]).drives = w.drives ∧ (w.dropBlocks d sides [block]).desks = w.desks ∧
    (w.dropBlocks d sides [block]).lines = w.lines ∧ (w.dropBlocks d sides [block]).queue = w.queue ∧
    (w.dropBlocks d sides [block]).handles = w.handles := by
  rw [dropBlocks_one]
  split
  · split
    · exact dropSector_frame _ _ _
    · exact ⟨rfl, rfl, rfl, rfl, rfl⟩
  · exact ⟨rfl, rfl, rfl, rfl, rfl⟩

/-- R60: so does the zeroing of the tail. -/
theorem zeroTail_frame (w : Work) (d : DriveId) (n block : Nat) :
    (w.zeroTail d n block).drives = w.drives ∧ (w.zeroTail d n block).desks = w.desks ∧
    (w.zeroTail d n block).lines = w.lines ∧ (w.zeroTail d n block).queue = w.queue ∧
    (w.zeroTail d n block).handles = w.handles := by
  unfold Work.zeroTail
  split
  · split <;> exact ⟨rfl, rfl, rfl, rfl, rfl⟩
  · exact ⟨rfl, rfl, rfl, rfl, rfl⟩

/-- R60: the first part of a set back. -/
def blockReturned (w : Work) (h : HandleIx) (d : DriveId) : Option Nat → Work
  | some b => w.returnBlock h d b
  | none => w

/-- R60: the set back is the return of the block, and then the zeroing of the tail. -/
theorem setBack_eq (w : Work) (h : HandleIx) (hd : Handle) (st : Staging) (tp : Bool) (nb : Option Nat)
    (hh : w.handle h = some hd) (hs : hd.staging = some st) :
    w.setBack h tp nb = match tp, (blocksOf st.extents)[st.length / 256]? with
      | true, some block => (blockReturned w h hd.drive nb).zeroTail hd.drive st.length block
      | _, _ => blockReturned w h hd.drive nb := by
  unfold Work.setBack
  rw [hh]
  dsimp only
  rw [hs]
  cases nb <;> rfl

/-- R60: what the return of the block does outside the buffers. -/
theorem blockReturned_frame (w : Work) (h : HandleIx) (d : DriveId) (nb : Option Nat) :
    (blockReturned w h d nb).desks = w.desks ∧ (blockReturned w h d nb).lines = w.lines ∧
    (blockReturned w h d nb).queue = w.queue ∧
    (∀ i, i ≠ h → (blockReturned w h d nb).handle i = w.handle i) ∧ (nb = none → (blockReturned w h d nb).handles = w.handles) ∧
    (∀ b, nb = some b → (blockReturned w h d nb).handle h = (w.handle h).map fun x =>
      { x with staging := x.staging.map fun st => { st with extents := dropBlock st.extents } }) ∧
    (∀ b, nb = some b → ((blockReturned w h d nb).drive d).media = (w.drive d).media.map (·.giveBack b)) ∧
    (nb = none → blockReturned w h d nb = w) ∧ (blockReturned w h d nb).sides d = w.sides d := by
  cases nb with
  | none => exact ⟨rfl, rfl, rfl, fun _ _ => rfl, fun _ => rfl, fun _ h => by simp at h,
      fun _ h => by simp at h, fun _ => rfl, rfl⟩
  | some b =>
    obtain ⟨f1, f2, f3, f4, f5⟩ := dropBlocks_one_frame w d (w.sides d) b
    have hh : ∀ i, (w.dropBlocks d (w.sides d) [b]).handle i = w.handle i := fun i => by unfold Work.handle; rw [f5]
    have hm : ((blockReturned w h d (some b)).drive d).media = (w.drive d).media.map (·.giveBack b) := by
      simp only [blockReturned, Work.returnBlock, drive_updHandle, drive_updMedia, if_true]
      rw [drive_of_drives f1]
    refine ⟨f2, f3, f4, fun i hi => ?_, fun h => by simp at h, fun b' hb => ?_, fun b' hb => ?_, fun h => by simp at h, ?_⟩
    · simp [blockReturned, Work.returnBlock, Ne.symm hi, hh]
    · simp [blockReturned, Work.returnBlock, hh]
    · cases hb; exact hm
    · simp only [Work.sides, hm]
      cases (w.drive d).media <;> rfl

/-- R60: what the set back does outside the buffers. -/
theorem setBack_spec (w : Work) (h : HandleIx) (hd : Handle) (st : Staging) (tp : Bool) (nb : Option Nat)
    (hh : w.handle h = some hd) (hs : hd.staging = some st) :
    (w.setBack h tp nb).desks = w.desks ∧ (w.setBack h tp nb).lines = w.lines ∧ (w.setBack h tp nb).queue = w.queue ∧
    (w.setBack h tp nb).handles = (blockReturned w h hd.drive nb).handles ∧
    (w.setBack h tp nb).drives = (blockReturned w h hd.drive nb).drives := by
  rw [setBack_eq w h hd st tp nb hh hs]
  obtain ⟨f1, f2, f3, -⟩ := blockReturned_frame w h hd.drive nb
  split
  · next block hb =>
    obtain ⟨g1, g2, g3, g4, g5⟩ := zeroTail_frame (blockReturned w h hd.drive nb) hd.drive st.length block
    exact ⟨g2.trans f1, g3.trans f2, g4.trans f3, g5, g1⟩
  · exact ⟨f1, f2, f3, rfl, rfl⟩

/-- A DIRTY sector is not ABSENT. -/
theorem dirty_ne {c : Cell} (h : c.isDirty = true) : c ≠ .absent := by cases c <;> simp_all [Cell.isDirty]

/-- R135: what the drop of a block does to the sectors: a DIRTY one that holds it becomes ABSENT, and no other changes. -/
def BlockDropped (w : Work) (key : TrackKey) (k : Fin 15) (w' : Work) : Prop :=
  BuffersStand w w' ∧
  (∀ c (j : Fin 15), ((w'.buffer c).sectors[j]).cell = ((w.buffer c).sectors[j]).cell ∨
    (w.bufferOf key = some c ∧ j = k ∧ ((w'.buffer c).sectors[j]).cell = .absent)) ∧
  ∀ c, w.bufferOf key = some c → ((w.buffer c).sectors[k]).cell.isDirty = true → ((w'.buffer c).sectors[k]).cell = .absent

/-- R135: the drop of one block. -/
theorem dropBlocks_one_cells (w : Work) (d : DriveId) (sides b : Nat) :
    BlockDropped w (keyOf d sides b) (blockSector b) (w.dropBlocks d sides [b]) := by
  rw [dropBlocks_one]
  unfold Work.sectorOf
  cases hc : w.bufferOf (keyOf d sides b) with
  | none => exact ⟨fun _ => .inr ⟨rfl, Iff.rfl⟩, fun _ _ => .inl rfl, fun c h => by simp [hc] at h⟩
  | some c1 =>
    simp only [Option.map_some]
    split
    · obtain ⟨g1, g2⟩ := dropSector_buffers w c1 (blockSector b) (bufferOf_some w _ c1 hc).1
      refine ⟨g2, fun c j => ?_, fun c h _ => ?_⟩
      · rw [g1]
        split
        · next e => exact .inr ⟨e.1 ▸ hc, e.2, rfl⟩
        · exact .inl rfl
      · rw [hc] at h
        cases h
        rw [g1, if_pos ⟨rfl, rfl⟩]
    · next hdirty =>
      refine ⟨fun _ => .inr ⟨rfl, Iff.rfl⟩, fun _ _ => .inl rfl, fun c h hd => absurd ?_ hdirty⟩
      rw [hc] at h
      cases h
      exact hd

/-- R60: the same of the block returned. -/
theorem blockReturned_cells (w : Work) (h : HandleIx) (d : DriveId) (b : Nat) :
    BlockDropped w (keyOf d (w.sides d) b) (blockSector b) (blockReturned w h d (some b)) :=
  dropBlocks_one_cells w d (w.sides d) b

/-- R2: a block is known by its track-side and its sector. -/
theorem block_of_place {d : DriveId} {sides a b : Nat} (h : keyOf d sides a = keyOf d sides b)
    (hs : blockSector a = blockSector b) : a = b := by
  simp only [keyOf, TrackKey.mk.injEq, true_and, blockTrack, blockSide] at h
  have hm : a % 15 = b % 15 := congrArg Fin.val hs
  split at h <;> omega

/-- R60: a tail filled up with zeros. -/
theorem pad_take (x : Chars) (n : Nat) : pad Config.sectorBytes (x.take (n % 256)) =
    x.take (n % 256) ++ List.replicate (256 - (x.take (n % 256)).length) 0 := by
  unfold pad
  have : (x.take (n % 256)).take 256 = x.take (n % 256) := List.take_of_length_le (by simp; omega)
  simp only [Config.sectorBytes, this]

/-- R125: the content of one sector put in, and no other changed. -/
theorem soil_cell (w : Work) (b c : BufId) (j k : Fin 15) (x : Chars) : (((w.soil b j x).buffer c).sectors[k]).cell =
    if c = b ∧ k = j then .dirty x else ((w.buffer c).sectors[k]).cell := by
  unfold Work.soil
  rw [buffer_updBuffer]
  by_cases h1 : b = c
  · subst h1
    by_cases h2 : k = j
    · subst h2; simp [Buffer.put]
    · have h3 : ¬ j.val = k.val := fun x => h2 (Fin.ext x.symm)
      simp [Buffer.put, h2, h3]
  · simp [h1, Ne.symm h1]

/-- R60: the sector that holds the tail keeps its staged bytes, then zeros; no ABSENT sector is filled. -/
theorem zeroTail_cells (w : Work) (d : DriveId) (n block : Nat) :
    (∀ c (k : Fin 15), ((w.buffer c).sectors[k]).cell = .absent →
      (((w.zeroTail d n block).buffer c).sectors[k]).cell = .absent) ∧
    ∀ c content, w.bufferOf (keyOf d (w.sides d) block) = some c →
      ((w.buffer c).sectors[blockSector block]).cell.content? = some content →
      (((w.zeroTail d n block).buffer c).sectors[blockSector block]).cell =
        .dirty (pad Config.sectorBytes (content.take (n % 256))) := by
  unfold Work.zeroTail Work.sectorOf
  refine ⟨fun c k ha => ?_, fun c content hb hc => ?_⟩
  · cases w.bufferOf (keyOf d (w.sides d) block) with
    | none => exact ha
    | some b =>
      have zeroed : ∀ o, ((w.buffer b).sectors[blockSector block]).cell.content? = o →
          (((match o with
            | some x => w.soil b (blockSector block) (pad Config.sectorBytes (x.take (n % 256)))
            | none => w : Work).buffer c).sectors[k]).cell = .absent := by
        rintro (_ | x) hx
        · exact ha
        · by_cases e : c = b ∧ k = blockSector block
          · obtain ⟨rfl, rfl⟩ := e
            rw [ha] at hx
            exact absurd hx (by simp [Cell.content?])
          · exact (soil_cell w b c _ k _).trans ((if_neg e).trans ha)
      exact zeroed _ rfl
  · simp only [hb, Option.map_some, hc]
    rw [soil_cell, if_pos ⟨rfl, rfl⟩]

/-- R1: the volume keeps its sides. -/
theorem blockReturned_sides (w : Work) (h : HandleIx) (d : DriveId) (nb : Option Nat) :
    (blockReturned w h d nb).sides d = w.sides d :=
  (blockReturned_frame w h d nb).2.2.2.2.2.2.2.2

/-- R60: what the set back does to the sectors of the new block and of the tail. -/
theorem setBack_cells (w : Work) (h : HandleIx) (hd : Handle) (st : Staging) (tp : Bool) (nb : Option Nat)
    (hh : w.handle h = some hd) (hs : hd.staging = some st) :
    (∀ b c, nb = some b → w.bufferOf (keyOf hd.drive (w.sides hd.drive) b) = some c →
      ((w.buffer c).sectors[blockSector b]).cell.isDirty = true →
      (((w.setBack h tp nb).buffer c).sectors[blockSector b]).cell = .absent) ∧
    ∀ block c content, tp = true → (blocksOf st.extents)[st.length / 256]? = some block →
      w.bufferOf (keyOf hd.drive (w.sides hd.drive) block) = some c →
      nb ≠ some block →
      ((w.buffer c).sectors[blockSector block]).cell.content? = some content →
      (((w.setBack h tp nb).buffer c).sectors[blockSector block]).cell = .dirty (content.take (st.length % 256) ++
        List.replicate (256 - (content.take (st.length % 256)).length) 0) := by
  rw [setBack_eq w h hd st tp nb hh hs]
  refine ⟨fun b c hb hh' hdirty => ?_, fun block c content htp hblock hh' hne hc => ?_⟩
  · subst hb
    have h1 := (blockReturned_cells w h hd.drive b).2.2 c hh' hdirty
    split
    · next block _ => exact (zeroTail_cells _ hd.drive st.length block).1 c _ h1
    · exact h1
  · subst htp
    rw [hblock, ← pad_take]
    dsimp only
    have hcell : (((blockReturned w h hd.drive nb).buffer c).sectors[blockSector block]).cell =
        ((w.buffer c).sectors[blockSector block]).cell := by
      cases nb with
      | none => rfl
      | some b =>
        rcases (blockReturned_cells w h hd.drive b).2.1 c (blockSector block) with e | ⟨e1, e2, _⟩
        · exact e
        · have k1 := (bufferOf_some w _ c e1).2
          have k2 := (bufferOf_some w _ c hh').2
          exact absurd (congrArg some (block_of_place (Option.some.inj (k1.symm.trans k2)) e2.symm)) hne
    have hst : BuffersStand w (blockReturned w h hd.drive nb) := by
      cases nb with
      | none => exact fun _ => .inr ⟨rfl, Iff.rfl⟩
      | some b => exact (blockReturned_cells w h hd.drive b).1
    refine (zeroTail_cells _ hd.drive st.length block).2 c content ?_ (by rw [hcell]; exact hc)
    rw [blockReturned_sides]
    refine hst.bufferOf (k := blockSector block) hh' ?_
    rw [hcell]
    intro ha
    rw [ha] at hc
    exact absurd hc (by simp [Cell.content?])

end Sys2Proof.Machine
end

