-- ==== Sys2Proof/Tests/Slice0.lean ====
section
/-! SUPPORT. The author's tests: well-formedness refuses each ill-formed operand, small steps of the commands, and for each
obligation a state and operands that meet its hypotheses, clause by clause. -/

namespace Sys2Proof.Tests

open Sys2Proof Sys2Proof.Machine

set_option Elab.async false

/-! ### Ill-formed operands -/

/-- A command of desk 0.1 in packed form. -/
def env : Envelope := ⟨0, 5, .packed⟩

/-- A full sector of one byte. -/
def sector (b : Byte) : Chars := List.replicate 256 b

theorem test_wf_accepts_packed_tag : (Instr.status ⟨0, 255, .packed⟩ 0).wf = true := by decide
theorem test_wf_refuses_packed_tag : (Instr.status ⟨0, 256, .packed⟩ 0).wf = false := by decide
theorem test_wf_accepts_text_tag : (Instr.status ⟨0, 99, .text⟩ 0).wf = true := by decide
theorem test_wf_refuses_text_tag : (Instr.status ⟨0, 100, .text⟩ 0).wf = false := by decide
theorem test_wf_accepts_sectors : (Instr.readTrackAttemptEnd 0 false (List.replicate 15 (.good (sector 0)))).wf = true := by
  decide +kernel
theorem test_wf_refuses_sector_size :
    (Instr.readTrackAttemptEnd 0 false (List.replicate 15 (.good [0]))).wf = false := by decide
theorem test_wf_refuses_sector_count :
    (Instr.formatTrackAttemptEnd 0 false (List.replicate 14 .crcError)).wf = false := by decide
theorem test_wf_refuses_write_count :
    (Instr.writeSectorsAttemptEnd 0 false (List.replicate 16 .notFound)).wf = false := by decide
theorem test_wf_refuses_read_back :
    (Instr.catalogueWriteAttemptEnd 0 false (.written (.good [1, 2]))).wf = false := by decide
theorem test_wf_refuses_label_read_back :
    (Instr.labelWriteAttemptEnd 0 false (.written (.good []))).wf = false := by decide
theorem test_wf_refuses_mark_with_parity : (Instr.upstreamCharacter 0 ⟨1, true, true, false⟩).wf = false := by decide
theorem test_wf_refuses_known_kind : (Instr.unknownKindFrame env 0x10).wf = false := by decide
theorem test_wf_refuses_last_kind : (Instr.unknownKindFrame env 0x24).wf = false := by decide
theorem test_wf_accepts_unknown_kind : (Instr.unknownKindFrame env 0x25).wf = true := by decide
theorem test_wf_refuses_wide_kind : (Instr.unknownKindFrame env 256).wf = false := by decide

/-! ### Small states -/

/-- What a command leaves. -/
def after (c : Instr) (s : State) : State :=
  match exec c s with
  | .next t => t
  | .fault _ => s
  | .refused _ => s

/-- Desk 0.1, a supervisor, PRESENT on line 0. -/
def base : State := { State.reset with work := State.reset.work.updDesk 0 fun k => { k with presence := .present } }

/-- A state with its drive 0 changed. -/
def drive0 (s : State) (f : Drive → Drive) : State := { s with work := s.work.updDrive 0 f }

/-- A state with its line changed. -/
def lineAt (s : State) (l : LineId) (f : Line → Line) : State := { s with work := s.work.updLine l f }

/-- A state with the record of desk 0.1 changed. -/
def desk0 (s : State) (f : Desk → Desk) : State := { s with work := s.work.updDesk 0 f }

/-- A state with handle 1 in use. -/
def handle0 (s : State) (h : Handle) : State := { s with work := s.work.setHandle 0 (some h) }

/-- A state with a request in queue slot 0. -/
def entry0 (s : State) (e : Entry) : State := { s with work := s.work.setEntry 0 (some e) }

/-- A state with buffer 0 changed. -/
def buffer0 (s : State) (f : Buffer → Buffer) : State := { s with work := s.work.updBuffer 0 f }

/-- The slugs A, B, C and D. -/
def slugA : Chars := [0x41]
/-- The slug B. -/
def slugB : Chars := [0x42]
/-- The slug C. -/
def slugC : Chars := [0x43]
/-- The slug D. -/
def slugD : Chars := [0x44]

/-- A story of two blocks in basket 3, at version 7. -/
def story : Story := ⟨slugA, 3, 7, 300, 0, none, [⟨60, 2⟩]⟩

/-- A volume of two sides with story A in slot 0, B reserved in slot 1, C remembered by the damaged slot 2. -/
def media : Media := freshMedia ⟨[0x56], 1, 2, []⟩ (Vector.ofFn fun i =>
  if i.val = 0 then .filed story none else if i.val = 1 then .reserved slugB 4
  else if i.val = 2 then .damaged (some slugC) none else .empty)

/-- The volume mounted on drive 0, which is IDLE with its head on track 5. -/
def vol : State := drive0 base fun dr =>
  { dr with vol := .mounted, media := some media, mech := .idle, head := some 5, takenLevel := true, readyLine := true,
            indexWatch := some 1000, unloadTimer := some 10000 }

/-- A READ handle of story A. -/
def reader : Handle := ⟨0, 0, 0, .read, .live, some ⟨7, .catalogue⟩, none, 0, none⟩
/-- A check-out of story A. -/
def editor : Handle := ⟨0, 0, 0, .edit, .live, none, some 7, 0, some ⟨0, [], false⟩⟩
/-- The check-out of the new story B. -/
def author : Handle := ⟨0, 0, 1, .edit, .live, none, none, 0, some ⟨0, [], true⟩⟩

/-- A request of desk 0.1 that waits on drive 0. -/
def waiting (job : Job) : Entry := ⟨0, 5, job, 0, 0, false, none⟩

/-- A request of desk 0.1 that is ACTIVE on drive 0. -/
def active (job : Job) (p : Place) (g : Progress) : Entry := ⟨0, 5, job, 0, 0, false, some ⟨.ordinary, false, p, g⟩⟩

/-- An operation of drive 0. -/
def opOf (k : OpKind) (track : Nat) (origin : Origin) : Op := ⟨k, track, 0, none, .none, origin, false⟩

/-- A supervisor on line 0 is served. -/
theorem served (s : State) (k : ReqKind)
    (h : (s.work.line 0).enabled = true ∧ (s.work.line 0).tx.length ≤ 10 ∧ s.work.restarting = false ∧
      (s.work.desk 0).presence = .present ∧ (s.work.desk 0).outstanding = none ∧ s.cfg.cls 0 = .supervisor) :
    Served s 0 k := by
  obtain ⟨a, b, c, d, e, f⟩ := h
  refine ⟨⟨a, b, c⟩, d, e, ?_⟩
  rw [show s.cfg.cls 0 = .supervisor from f]
  cases k <;> rfl

/-! ### Frames as they come on a line (R182, R183) -/

/-- STX, length 4, kind STATUS 1Ah, tag 5, drive 1, check. -/
theorem test_packed_status_frame :
    packedCheck [0x02, 0x04, 0x1A, 0x05, 0x01, 0xDC] = true ∧
      readPacked 0 [0x02, 0x04, 0x1A, 0x05, 0x01, 0xDC] = ⟨⟨0, 5, .packed⟩, .status 1⟩ := by decide

/-- The text frame 05 STATUS 1. -/
theorem test_text_status_frame :
    readText 0 [0x30, 0x35, 0x20, 0x53, 0x54, 0x41, 0x54, 0x55, 0x53, 0x20, 0x31] = ⟨⟨0, 5, .text⟩, .status 1⟩ := by decide


/-! ### Witnesses: the step, the invariants and the records -/

theorem witness_StepRunsFrontCommand : base.pending = [] := rfl

theorem witness_StepKeepsSupervisor : ∃ s t : State, HasSupervisor s.cfg ∧ step s = .next t :=
  ⟨{ base with pending := [.minuteExpiry] }, base, ⟨0, by decide⟩, rfl⟩

theorem witness_StepKeepsSettingsInRange : ∃ s t : State, s.cfg.InRange ∧ step s = .next t := by
  refine ⟨{ base with pending := [.minuteExpiry] }, base, ?_, rfl⟩
  refine ⟨by decide, by decide, by decide, by decide, by decide, by decide, by decide, by decide, by decide, by decide,
    by decide, ?_, ?_⟩
  · intro i
    refine ⟨?_, ?_, ?_, ?_, ?_, ?_, ?_, ?_⟩
    · revert i; decide
    · revert i; decide
    · revert i; decide
    · revert i; decide
    · revert i; decide
    · revert i; decide
    · unfold BasketsInRange; revert i; decide
    · intro bs h
      have : ∀ i : Fin 6, (base.cfg.editions[i]).pendingBaskets = none := by decide
      rw [this i] at h
      simp at h
  · intro m h
    have : base.cfg.clock = .unset := rfl
    rw [this] at h
    simp at h

theorem witness_StepKeepsTablesInForm : ∃ s t : State, s.work.TablesInForm ∧ step s = .next t := by
  refine ⟨{ base with pending := [.minuteExpiry] }, base, ⟨?_, by decide⟩, rfl⟩
  intro d m h
  have : ∀ d : DriveId, (base.work.drive d).media = none := by decide
  rw [show ({ base with pending := [.minuteExpiry] } : State).work.drive d = base.work.drive d from rfl, this d] at h
  simp at h

theorem witness_StepKeepsCapacities : ∃ s t : State, s.work.InBounds ∧ step s = .next t := by
  refine ⟨{ base with pending := [.minuteExpiry] }, base, ⟨?_, ?_, ?_⟩, rfl⟩
  · decide
  · intro d
    refine ⟨?_, ?_⟩
    · revert d; decide
    · intro t h
      have : ∀ d : DriveId, (base.work.drive d).head = none := by decide
      rw [show ({ base with pending := [.minuteExpiry] } : State).work.drive d = base.work.drive d from rfl, this d] at h
      simp at h
  · unfold Line.InBounds Counts.InBounds
    decide

theorem witness_StepKeepsChannelAgreement : ∃ s t : State, s.work.ChannelAgrees ∧ step s = .next t := by
  refine ⟨{ base with pending := [.minuteExpiry] }, base, ?_, rfl⟩
  unfold Work.ChannelAgrees
  decide

/-- The longest extent list of an entry: eight extents of 16 blocks, 128 blocks in all. -/
def longStory : Story :=
  ⟨[0x5A, 0x5A, 0x5A, 0x5A, 0x5A, 0x5A, 0x5A, 0x5A, 0x5A, 0x5A, 0x5A, 0x5A], 63, 9999, 32768, 31, some 1439,
    (List.range 8).map fun i => ⟨60 + 17 * i, 16⟩⟩

theorem witness_FiledEntryReadsBack :
    longStory.InRange ∧ (blocksOf longStory.extents).length = blocksFor longStory.length ∧
      (blocksOf longStory.extents).Nodup ∧
      (∀ b ∈ blocksOf longStory.extents, isDataBlock 2 b = true ∧ b ∉ ([] : List Nat) ∧ b ∉ ([] : List Nat)) ∧
      longStory.slug ∉ ([] : List Chars) := by
  unfold Story.InRange Extent.InRange
  decide +kernel

theorem witness_LabelReadsBack :
    Label.Valid ⟨[0x56], 999999, 1, (List.range 16).map (30 + ·)⟩ ∧
      Label.Valid ⟨[0x56, 0x2D, 0x39, 0x41, 0x42, 0x43, 0x44, 0x45], 1, 2, []⟩ := by
  unfold Label.Valid
  decide +kernel

theorem witness_BlockNamesItsPlace : ((2 = 2 ∧ 1 < 2) ∨ (2 = 1 ∧ 1 = 0)) ∧ ((1 = 2 ∧ 0 < 2) ∨ (1 = 1 ∧ 0 = 0)) := by decide

/-! ### Witnesses: taking a frame -/

/-- A state whose desk 0.1 has a class. -/
def classed (c : Cls) : State := { base with cfg := { base.cfg with classes := base.cfg.classes.set 0 c } }

theorem witness_FrameThatIsNotServed :
    (frameOf (.status env 0) = some ⟨env, .status 0⟩ ∧ ({ base.work with restarting := true } : Work).restarting = true ∧
      ((lineAt base 0 fun x => { x with enabled := false }).work.line (lineOf 0)).enabled = false) ∧
    (Request.status 0 ≠ .cancel ∧ Heard (desk0 base fun k => { k with outstanding := some ⟨5, some .status, none⟩ }) 0 ∧
      ((desk0 base fun k => { k with outstanding := some ⟨5, some .status, none⟩ }).work.desk 0).presence = .present ∧
      ((desk0 base fun k => { k with outstanding := some ⟨5, some .status, none⟩ }).work.desk 0).outstanding ≠ none) ∧
    (Heard (classed .reporter) 0 ∧ ((classed .reporter).work.desk 0).presence = .present ∧
      ((classed .reporter).work.desk 0).outstanding = none ∧ (classed .reporter).cfg.cls 0 = .reporter ∧
      (classed .copy).cfg.cls 0 = .copy ∧ (classed .slot).cfg.cls 0 ≠ .supervisor ∧
      kindOf (.kill 0 slugA) = some .kill ∧ kindOf (.breakCheckOut 0 slugA) = some .breakIt ∧
      kindOf .restart = some .restart) ∧
    (Heard base 0 ∧ (base.work.desk 0).presence = .present ∧ (base.work.desk 0).outstanding = none) := by
  unfold Heard
  decide +kernel

/-! ### Witnesses: requests that read, settings, rules -/

theorem witness_ReadingRequestsReply :
    Served base 0 .status ∧ (base.work.drive 3).enabled = true ∧ Served base 0 .query ∧
      itemValue base.cfg base.work 14 0 = some 3 ∧ Served base 0 .rule ∧ Served base 0 .edition :=
  ⟨served _ _ (by decide), by decide, served _ _ (by decide), by decide, served _ _ (by decide), served _ _ (by decide)⟩

theorem witness_ReadingRefusals :
    Served base 0 .status ∧ Served base 0 .query ∧ Served base 0 .rule ∧ Served base 0 .edition ∧ Served base 0 .lineStatus ∧
      ((drive0 base fun dr => { dr with enabled := false }).work.drive 0).enabled = false ∧
      (14 < 15 ∧ 5 ∈ [1, 2, 3, 4, 5, 8] ∧ 4 ≤ 4 ∧ 2 ≤ 2 ∧ 64 ≤ 64 ∧ 48 % 16 = 0 ∧ 8 < 57 % 16 ∧ 16 ≤ 16 ∧ 6 ≤ 6) :=
  ⟨served _ _ (by decide), served _ _ (by decide), served _ _ (by decide), served _ _ (by decide), served _ _ (by decide),
    by decide, by decide⟩

theorem witness_LineStatusReportsAndClears : Served base 0 .lineStatus := served _ _ (by decide)

theorem witness_SetChangesItem :
    Served base 0 .set ∧ 500 ≤ 500 ∧ 15 ∈ [3, 6, 10, 15] ∧ (2 ≤ 60 ∧ 60 ≤ 60) ∧ (1 ≤ 8 ∧ 8 ≤ 8) ∧ 1 ≤ 1 ∧
      (itemValue base.cfg base.work 2 0 = some 2 ∧ itemValueOk 2 0 = true ∧ 0 ≠ 2 ∧
        itemFree base.cfg base.work 2 0 0 = false) ∧
      itemValue base.cfg base.work 15 0 = none ∧ itemValueOk 7 501 = false ∧
      itemValue base.cfg base.work 7 0 = some 20 ∧ itemValueOk 7 20 = true :=
  ⟨served _ _ (by decide), by decide⟩

theorem witness_SetClassKeepsASupervisor :
    Served base 0 .set ∧ (Cls.reporter ≠ .supervisor ∧ base.cfg.cls (deskOf 0 1) = .supervisor ∧
      ∀ j, base.cfg.cls j = .supervisor → j = deskOf 0 1) ∧ base.cfg.cls (deskOf 3 8) ≠ .supervisor :=
  ⟨served _ _ (by decide), by decide⟩

theorem witness_LineEnableAndDisable :
    (Served (lineAt base 1 fun x => { x with enabled := true }) 0 .set ∧ lineOf 0 ≠ 1 ∧
      ((lineAt base 1 fun x => { x with enabled := true }).work.line 1).enabled = true) ∧
    (Served base 0 .set ∧ (base.work.line 3).enabled = false ∧ ∀ k, lineOf k = 3 → (base.work.desk k).notices = []) :=
  ⟨⟨served _ _ (by decide), by decide⟩, served _ _ (by decide), by decide⟩

theorem witness_DriveEnableAndDisable :
    (Served (drive0 base fun dr => { dr with enabled := false }) 0 .set ∧
      ((drive0 base fun dr => { dr with enabled := false }).work.drive 0).enabled = false) ∧
    (Served base 0 .set ∧ (base.work.drive 3).enabled = true ∧ (∀ h, ¬ (base.work.handle h).any (·.drive == 3)) ∧
      ∀ q, ¬ (base.work.entry q).any (·.drive == 3)) ∧
    (Served (handle0 vol reader) 0 .set ∧ ∃ h, ((handle0 vol reader).work.handle h).any (·.drive == 0) = true) :=
  ⟨⟨served _ _ (by decide), by decide⟩, ⟨served _ _ (by decide), by decide⟩, served _ _ (by decide), 0, by decide⟩

theorem witness_RuleWritesOneEntry :
    Served base 0 .rule ∧ ((15 : Fin 16).val = 15 ∧ 1 ≤ 1 ∧ 15 < 16 ∧ 63 ≤ 63) ∧ (16 ≤ 16 ∨ 1 < 0) ∧
      (Heard State.reset 0 ∧ (State.reset.work.desk 0).presence ≠ .present ∧
        (State.reset.work.desk 0).outstanding = none ∧ State.reset.cfg.cls 0 = .supervisor ∧
        RuleFields.entry? ⟨1, 0, 63, 1, 15, 3⟩ = some ⟨true, 0, 63, true, ⟨true, true, true, true⟩, .deposit⟩) :=
  ⟨served _ _ (by decide), by decide, by decide, by unfold Heard; decide⟩

theorem witness_FirstMatchingRuleGrants :
    let cfg := { base.cfg with rules := base.cfg.rules.set 15 ⟨true, 3, 3, true, ⟨false, true, false, false⟩, .read⟩ }
    let hit := fun (basket : Nat) (i : Fin 16) => (cfg.rules[i]).enabled = true ∧ (cfg.rules[i]).low ≤ basket ∧
      basket ≤ (cfg.rules[i]).high ∧ ((cfg.rules[i]).compare = false ∨ (cfg.rules[i]).classes.has .copy = true)
    (hit 3 15 ∧ ∀ j, j < 15 → ¬ hit 3 j) ∧ ∀ i, ¬ hit 4 i := by
  decide +kernel

/-! ### Witnesses: the edition clock -/

/-- The entry that closes basket 3 from minute 1 to minute 60. -/
def closing : Edition := ⟨[0x45], true, 1, 60, 0, [3], none, .scheduled⟩

/-- A state with an edition entry and the clock at a minute. -/
def atMinute (s : State) (m : Nat) (e : Edition) : State :=
  { s with cfg := { s.cfg with clock := .running m, minuteInterval := some 60, editions := s.cfg.editions.set 0 e } }

/-- An edition that closes at 100 and reopens at 160, with a lead of 10. -/
def warned : Edition := ⟨[0x45], true, 100, 160, 10, [3], none, .scheduled⟩

theorem witness_EditionStateFollowsClock :
    ({ warned with enabled := false }.enabled = false) ∧ warned.enabled = true ∧
      ((100 + 1440 - 100) % 1440 < (160 + 1440 - 100) % 1440 ∧ (159 + 1440 - 100) % 1440 < 60) ∧
      (60 ≤ (90 + 1440 - 100) % 1440 ∧ 0 < warned.lead ∧ 1 ≤ (100 + 1440 - 90) % 1440 ∧
        (100 + 1440 - 90) % 1440 ≤ warned.lead) ∧
      (60 ≤ (160 + 1440 - 100) % 1440 ∧ warned.lead < (100 + 1440 - 160) % 1440) ∧
      (∃ s t : State, s.cfg.clock = .running 1439 ∧ exec .minuteExpiry s = .next t) ∧
      (∃ s t : State, s.work.restarting = true ∧ s.work.writesDone = true ∧ exec .restartClearing s = .next t) :=
  ⟨by decide, by decide, by decide, by decide, by decide,
    ⟨atMinute base 1439 closing, after .minuteExpiry (atMinute base 1439 closing), rfl, rfl⟩,
    ⟨{ base with work := { base.work with restarting := true } },
      after .restartClearing { base with work := { base.work with restarting := true } }, rfl, by decide, by
        simp only [after, exec, execRestartClearing]
        rfl⟩⟩

theorem witness_ClockSetsTheMinute : Served base 0 .clock ∧ 1439 ≤ 1439 ∧ 1439 < 1440 :=
  ⟨served _ _ (by decide), by decide⟩

theorem witness_MinuteExpiryMovesTheClock :
    (atMinute base 1439 closing).cfg.clock = .running 1439 ∧
      ((atMinute base 59 { closing with state := .closed, pendingBaskets := some [4] }).cfg.editions[0]).pendingBaskets =
        some [4] ∧
      ((atMinute base 59 { closing with state := .closed, pendingBaskets := some [4] }).cfg.editions[0]).state = .closed :=
  by decide

theorem witness_EditionChangeFreezesAndThaws :
    let s := handle0 (atMinute vol 0 closing) editor
    let t := after .minuteExpiry s
    let u := handle0 (atMinute vol 59 { closing with state := .closed }) { editor with state := .frozen }
    let v := after .minuteExpiry u
    (exec .minuteExpiry s = .next t ∧ s.work.handle 0 = some editor ∧ (s.work.slotOf editor).basket? = some 3 ∧
      (∃ i : Fin 6, (s.cfg.editions[i]).state ≠ .closed ∧ (t.cfg.editions[i]).state = .closed ∧
        3 ∈ (t.cfg.editions[i]).baskets) ∧ s.cfg.cls 0 ≠ .slot) ∧
    (exec .minuteExpiry u = .next v ∧ u.work.handle 0 = some { editor with state := .frozen } ∧
      (u.work.slotOf editor).basket? = some 3 ∧
      (∃ i : Fin 6, (u.cfg.editions[i]).state = .closed ∧ (v.cfg.editions[i]).state ≠ .closed) ∧
      ∀ i : Fin 6, (v.cfg.editions[i]).state = .closed → 3 ∉ (v.cfg.editions[i]).baskets) := by
  refine ⟨⟨rfl, ?_⟩, rfl, ?_⟩ <;> decide +kernel

theorem witness_EditionWritesOneEntry :
    Served base 0 .edition ∧ EditionFields.inRange ⟨[0x45], 1, 1439, 0, 60, List.range 12⟩ = true ∧
      (base.cfg.editions[5]).state = .disabled ∧
      ((atMinute base 5 { closing with state := .closed }).cfg.editions[0]).state = .closed :=
  ⟨served _ _ (by decide), by decide +kernel⟩

theorem witness_EditionRefusals :
    Served base 0 .edition ∧ 6 ≤ 6 ∧ nameOk [] = false ∧ 1 < 2 ∧ 1439 < 1440 ∧ 60 < 61 ∧ 12 < (List.range 13).length ∧
      63 < 64 ∧ ¬ ([3, 3] : List Nat).Nodup ∧ (0 + 1440 - 1380) % 1440 ≤ 60 :=
  ⟨served _ _ (by decide), by decide⟩

/-! ### Witnesses: the catalogue and the handles -/

theorem witness_ListScanIsComplete :
    (collect (fun i => some (.damaged i none)) (catSlots.drop 111) 4).2 = some 115 ∧
      (collect (fun i => some (.damaged i none)) (catSlots.drop 112) 4).2 = none := by decide +kernel

theorem mounted_vol : Mounted vol 0 media := by unfold Mounted; decide +kernel

/-- Desk 0.1 in the middle of a LIST of drive 0. -/
def listing (pos : Nat) (mark : EndMark) : State :=
  desk0 vol fun k => { k with outstanding := some ⟨5, some .list, some ⟨0, .all, pos, mark⟩⟩ }

theorem witness_ListSendsItsFrames :
    (Served vol 0 .list ∧ Mounted vol 0 media ∧ filterInRange (.only 63) = true ∧ 115 ≤ 115 ∧
      (collect (vol.work.listEntry vol.cfg 0 0 .all media) (catSlots.drop 0) 4).2 = none ∧
      filterInRange (.only 64) = false ∧ 115 < 116) ∧
    (∀ mark ∈ [EndMark.none, .cancelled, .volumeGone], ((listing 2 mark).work.desk 0).presence = .present ∧
      ((listing 2 mark).work.desk 0).outstanding = some ⟨5, some .list, some ⟨0, .all, 2, mark⟩⟩ ∧
      ((listing 2 mark).work.drive 0).media = some media ∧
      ∀ f ∈ ((listing 2 mark).work.line (lineOf 0)).tx, TxFrame.unfinished 0 f = false) ∧
    (collect ((listing 2 .none).work.listEntry vol.cfg 0 0 .all media) (catSlots.drop 2) 4).2 = none :=
  ⟨⟨served _ _ (by decide +kernel), mounted_vol, by decide +kernel⟩, by decide +kernel⟩

/-- A volume whose every slot is damaged, so that a LIST of it goes on past its first frame. -/
def spoiled : Media := { media with catalogue := Vector.replicate 116 (.damaged none none) }

theorem witness_ListGoesOn :
    Mounted (drive0 vol fun dr => { dr with media := some spoiled }) 0 spoiled ∧
      (collect (vol.work.listEntry vol.cfg 0 0 .all spoiled) (catSlots.drop 0) 4).2 = some 4 ∧
      (collect (vol.work.listEntry vol.cfg 0 0 .all spoiled) (catSlots.drop 111) 4).2 = some 115 := by
  unfold Mounted
  decide +kernel

theorem witness_AcceptedOpenEntersAHandle :
    Served vol 0 .openStory ∧ Served vol 0 .create ∧ Mounted vol 0 media ∧ (vol.work.drive 0).vol = .mounted ∧
      slugOk slugA = true ∧ media.lookup slugA = .filed 0 story none ∧
      grantFor vol.cfg (vol.cfg.cls 0) story.basket = .readWrite ∧ basketClosed vol.cfg story.basket = false ∧
      vol.work.holderOf 0 0 = none ∧ vol.work.freeHandle 0 = some 0 ∧ slugOk slugD = true ∧ 63 ≤ 63 ∧
      media.lookup slugD = .none ∧ (∃ j, media.lookup slugC = .damaged j) ∧ media.catalogue[(3 : CatSlot)] = .empty ∧
      ∀ j : CatSlot, j < 3 → media.catalogue[j] ≠ .empty :=
  ⟨served _ _ (by decide +kernel), served _ _ (by decide +kernel), mounted_vol, by decide +kernel, by decide +kernel,
    by decide +kernel, by decide +kernel, by decide +kernel, by decide +kernel, by decide +kernel, by decide +kernel,
    by decide, by decide +kernel, ⟨2, by decide +kernel⟩, by decide +kernel, by decide +kernel⟩

/-- The volume with an access rule for basket 3 that grants READ. -/
def readOnly : State :=
  { vol with cfg := { vol.cfg with rules := vol.cfg.rules.set 0 ⟨true, 3, 3, false, ⟨false, false, false, false⟩, .read⟩ } }

/-- The volume with story A killed by desk 0.2. -/
def killed : Media := { media with catalogue := media.catalogue.set 0 (.filed story (some 1)) }

theorem witness_OpenEditRefusals :
    Served vol 0 .openStory ∧ Mounted vol 0 media ∧ slugOk slugA = true ∧ media.lookup slugD = .none ∧
      media.lookup slugB = .reserved 1 4 ∧ media.lookup slugC = .damaged 2 ∧ media.lookup slugA = .filed 0 story none ∧
      grantFor vol.cfg (vol.cfg.cls 0) story.basket = .readWrite ∧
      grantFor readOnly.cfg (readOnly.cfg.cls 0) story.basket ≠ .readWrite ∧
      basketClosed (atMinute vol 5 { closing with state := .closed }).cfg story.basket = true ∧
      vol.cfg.cls 0 ≠ .slot ∧ (vol.work.drive 0).vol = .mounted ∧
      Mounted (drive0 vol fun dr => { dr with vol := .writeProtected }) 0 media ∧
      Mounted (drive0 vol fun dr => { dr with vol := .writeFaulted }) 0 media ∧
      (handle0 vol editor).work.holderOf 0 0 = some 0 ∧
      Mounted (drive0 vol fun dr => { dr with media := some killed }) 0 killed ∧
      killed.lookup slugA = .filed 0 story (some 1) ∧ vol.work.holderOf 0 0 = none :=
  ⟨served _ _ (by decide +kernel), mounted_vol, by unfold Mounted; decide +kernel⟩

theorem witness_LookupOrder :
    media.catalogue[(0 : CatSlot)] = .filed story none ∧ story.slug = slugA ∧
      media.catalogue[(1 : CatSlot)] = .reserved slugB 4 ∧ media.catalogue[(2 : CatSlot)] = .damaged (some slugC) none ∧
      (∀ j : CatSlot, (media.catalogue[j] = .filed story none ↔ j = 0) ∧ (media.catalogue[j] = .reserved slugB 4 ↔ j = 1) ∧
        (media.catalogue[j] = .damaged (some slugC) none ↔ j = 2) ∧ (media.catalogue[j] = .empty ↔ 3 ≤ j)) := by
  decide +kernel

/-- In this catalogue a FILED slot is slot 0 and a RESERVED one slot 1. -/
theorem media_slots (j : CatSlot) :
    (∀ st k, media.catalogue[j] = .filed st k → j = 0 ∧ st = story) ∧
      (∀ g n, media.catalogue[j] = .reserved g n → j = 1 ∧ g = slugB) ∧
      ∀ g x, media.catalogue[j] = .damaged (some g) x → j = 2 ∧ g = slugC := by
  have hs := witness_LookupOrder.2.2.2.2 j
  by_cases h0 : j = 0
  · rw [hs.1.mpr h0]; simp_all
  · by_cases h1 : j = 1
    · rw [hs.2.1.mpr h1]; simp_all
    · by_cases h2 : j = 2
      · rw [hs.2.2.1.mpr h2]; simp_all
      · have v0 : j.val ≠ 0 := fun h => h0 (Fin.ext h)
        have v1 : j.val ≠ 1 := fun h => h1 (Fin.ext h)
        have v2 : j.val ≠ 2 := fun h => h2 (Fin.ext h)
        have h3 : (3 : CatSlot) ≤ j := show 3 ≤ j.val by omega
        rw [hs.2.2.2.mpr h3]; simp

theorem witness_LookupOrder_premises (slug : Chars) :
    (∀ a b : CatSlot, (∃ st k, media.catalogue[a] = .filed st k ∧ st.slug = slug) →
      (∃ st k, media.catalogue[b] = .filed st k ∧ st.slug = slug) → a = b) ∧
    (∀ a b : CatSlot, (∃ n, media.catalogue[a] = .reserved slug n) → (∃ n, media.catalogue[b] = .reserved slug n) →
      a = b) := by
  refine ⟨?_, ?_⟩
  · rintro a b ⟨st, k, ha, _⟩ ⟨st', k', hb, _⟩
    rw [((media_slots a).1 _ _ ha).1, ((media_slots b).1 _ _ hb).1]
  · rintro a b ⟨n, ha⟩ ⟨n', hb⟩
    rw [((media_slots a).2.1 _ _ ha).1, ((media_slots b).2.1 _ _ hb).1]

theorem witness_LookupOrder_clauses :
    (∀ j : CatSlot, ¬ ∃ st k, media.catalogue[j] = .filed st k ∧ st.slug = slugB) ∧
      (∀ j : CatSlot, ¬ ∃ st k, media.catalogue[j] = .filed st k ∧ st.slug = slugC) ∧
      (∀ j : CatSlot, ¬ ∃ n, media.catalogue[j] = .reserved slugC n) ∧
      (∀ j : CatSlot, j < 2 → ¬ ∃ x, media.catalogue[j] = .damaged (some slugC) x) ∧
      (∀ j : CatSlot, ¬ ∃ st k, media.catalogue[j] = .filed st k ∧ st.slug = slugD) ∧
      (∀ j : CatSlot, ¬ ∃ n, media.catalogue[j] = .reserved slugD n) ∧
      ∀ j : CatSlot, ¬ ∃ x, media.catalogue[j] = .damaged (some slugD) x := by
  refine ⟨?_, ?_, ?_, ?_, ?_, ?_, ?_⟩
  · rintro j ⟨st, k, h, hs⟩
    rw [((media_slots j).1 _ _ h).2] at hs
    exact absurd hs (by decide)
  · rintro j ⟨st, k, h, hs⟩
    rw [((media_slots j).1 _ _ h).2] at hs
    exact absurd hs (by decide)
  · rintro j ⟨n, h⟩
    exact absurd ((media_slots j).2.1 _ _ h).2 (by decide)
  · rintro j hj ⟨x, h⟩
    rw [((media_slots j).2.2 _ _ h).1] at hj
    exact absurd hj (by decide)
  · rintro j ⟨st, k, h, hs⟩
    rw [((media_slots j).1 _ _ h).2] at hs
    exact absurd hs (by decide)
  · rintro j ⟨n, h⟩
    exact absurd ((media_slots j).2.1 _ _ h).2 (by decide)
  · rintro j ⟨x, h⟩
    exact absurd ((media_slots j).2.2 _ _ h).2 (by decide)

/-! ### Witnesses: requests that name a handle -/

/-- A DEFUNCT check-out. -/
def lost : Handle := { editor with state := .defunct .lost, staging := none }

theorem witness_HandleIsChecked :
    (Served vol 0 .file ∧ Served vol 0 .close ∧ Served vol 0 .read ∧ (0 = 0 ∨ 48 < 0) ∧ (49 = 0 ∨ 48 < 49) ∧
      (∃ h : HandleIx, h.val + 1 = 48 ∧ (vol.work.handle h).all (·.desk != 0) = true) ∧
      ∃ h : HandleIx, h.val + 1 = 1 ∧ ((handle0 vol { reader with desk := 1 }).work.handle h).all (·.desk != 0) = true) ∧
    ((handle0 vol lost).work.handle 0 = some lost ∧ lost.desk = env.desk ∧ lost.state = .defunct .lost ∧
      Served (handle0 vol lost) 0 .close ∧ Served (handle0 vol lost) 0 .file ∧ Served (handle0 vol lost) 0 .write) :=
  ⟨⟨served _ _ (by decide +kernel), served _ _ (by decide +kernel), served _ _ (by decide +kernel), by decide, by decide,
      ⟨47, by decide +kernel⟩, ⟨0, by decide +kernel⟩⟩, by decide +kernel, by decide, by decide,
    served _ _ (by decide +kernel), served _ _ (by decide +kernel), served _ _ (by decide +kernel)⟩

/-- The volume with a READ handle of story A. -/
def reading : State := handle0 vol reader

/-- The same with both sectors of story A in buffer 0. -/
def buffered : State :=
  buffer0 reading fun _ =>
    { Buffer.powerOn with state := .ready, key := some ⟨0, 2, 0⟩,
                          sectors := Vector.ofFn fun k => ⟨.valid (sector (byte k.val)), false⟩ }

theorem live_reader (c : Cause) : reader.state ≠ .defunct c := by simp [reader]

theorem witness_ReadAnsweredAtIntake :
    (Served reading 0 .read ∧ reading.work.handle 0 = some reader ∧ reader.desk = env.desk ∧ 1 ≤ 48 ∧
      (∀ o ∈ some 300, o ≤ 32768) ∧ (reading.work.versionOf reader).1 ≤ (some 300).getD reader.readPos) ∧
    (Served buffered 0 .read ∧ buffered.work.handle 0 = some reader ∧
      (some 299).getD reader.readPos < (buffered.work.versionOf reader).1 ∧
      buffered.work.validPieces 0 (readPieces (buffered.work.versionOf reader).2 (buffered.work.versionOf reader).1 299 48) =
        some [1] ∧
      buffered.work.validPieces 0 (readPieces (buffered.work.versionOf reader).2 (buffered.work.versionOf reader).1 255 2) =
        some [0, 1]) :=
  ⟨⟨served _ _ (by decide +kernel), by decide +kernel⟩, served _ _ (by decide +kernel), by decide +kernel⟩

/-- The volume with the check-out of story A, 40 bytes before the end of what may be staged. -/
def writing : State := handle0 vol { editor with staging := some ⟨32720, [], false⟩ }

theorem witness_QueuedRequestWaits :
    (writing.work.entry 0 = none ∧ (∀ p : QSlot, p < 0 → writing.work.entry p ≠ none) ∧
      (writing.work.drive 0).enabled = true ∧ (writing.work.drive 0).vol.present = true ∧
      writing.work.handle 0 = some { editor with staging := some ⟨32720, [], false⟩ } ∧
      (List.replicate 48 (0 : Byte)).length ≤ 48 ∧ 32720 + (List.replicate 48 (0 : Byte)).length ≤ 32768) ∧
    (Served writing 0 .write ∧ Served writing 0 .file) ∧
    (Served reading 0 .read ∧ (none : Option Nat).getD reader.readPos < (reading.work.versionOf reader).1 ∧
      reading.work.validPieces 0 (readPieces (reading.work.versionOf reader).2 (reading.work.versionOf reader).1 0 1) =
        none) ∧
    (Served vol 0 .kill ∧ slugOk slugA = true ∧ (vol.work.drive 0).media = some media ∧ (vol.work.drive 0).vol = .mounted ∧
      media.lookup slugA = .filed 0 story none ∧ grantFor vol.cfg (vol.cfg.cls 0) story.basket = .readWrite ∧
      basketClosed vol.cfg story.basket = false ∧ vol.work.holderOf 0 0 = none) ∧
    (Served vol 0 .format ∧ nameOk [0x56] = true ∧ 999999 ≤ 999999) ∧ Served vol 0 .remount :=
  ⟨by decide +kernel, ⟨served _ _ (by decide +kernel), served _ _ (by decide +kernel)⟩,
    ⟨served _ _ (by decide +kernel), by decide +kernel⟩, ⟨served _ _ (by decide +kernel), by decide +kernel⟩,
    ⟨served _ _ (by decide +kernel), by decide +kernel⟩, served _ _ (by decide +kernel)⟩

theorem witness_WriteAndFileRefusals :
    (reading.work.handle 0 = some reader ∧ reader.mode = .read ∧ Served reading 0 .write ∧ Served reading 0 .file) ∧
    ((handle0 vol { editor with state := .frozen }).work.handle 0 = some { editor with state := .frozen } ∧
      Served (handle0 vol { editor with state := .frozen }) 0 .write) ∧
    (writing.work.handle 0 = some { editor with staging := some ⟨32720, [], false⟩ } ∧ 0 ≠ 32720 ∧ 32720 = 32720 ∧
      ((handle0 vol { editor with staging := some ⟨32721, [], false⟩ }).work.handle 0).isSome = true ∧
      32768 < 32721 + (List.replicate 48 (0 : Byte)).length ∧ ∀ c : Bool, editor.state ≠ .defunct (if c then .lost else .broken)) :=
  ⟨⟨by decide +kernel, by decide, served _ _ (by decide +kernel), served _ _ (by decide +kernel)⟩,
    ⟨by decide +kernel, served _ _ (by decide +kernel)⟩, by decide +kernel⟩

/-- The retired version that a READ handle pins. -/
def retired (pins : Nat) : State :=
  let s := handle0 vol { reader with pin := some ⟨6, .record 15⟩ }
  { s with work := s.work.setRecord 15 (some ⟨0, 300, [⟨62, 2⟩], pins⟩) }

theorem witness_DiscardAndCloseFreeTheHandle :
    (Served (handle0 vol author) 0 .discard ∧ (handle0 vol author).work.handle 0 = some author ∧ author.mode = .edit ∧
      author.state = .live ∧ author.staging = some ⟨0, [], true⟩ ∧
      ∀ b, ((handle0 vol author).work.buffer b).reloc = none) ∧
    (Served reading 0 .close ∧ reading.work.handle 0 = some reader ∧ reader.pin = some ⟨7, .catalogue⟩) ∧
    (Served (retired 2) 0 .close ∧ ((retired 2).work.record 15).map (·.pins) = some 2 ∧ 2 ≤ 2 ∧
      Served (retired 1) 0 .close ∧ ((retired 1).work.record 15).map (·.pins) = some 1) ∧
    (Served (handle0 vol editor) 0 .close ∧ editor.mode = .edit ∧ editor.state = .live) :=
  ⟨⟨served _ _ (by decide +kernel), by decide +kernel⟩, ⟨served _ _ (by decide +kernel), by decide +kernel⟩,
    ⟨served _ _ (by decide +kernel), by decide +kernel, by decide, served _ _ (by decide +kernel), by decide +kernel⟩,
    served _ _ (by decide +kernel), by decide⟩

theorem witness_BreakTakesTheCheckOut :
    (Served (handle0 vol editor) 0 .breakIt ∧ Mounted (handle0 vol editor) 0 media ∧ slugOk slugA = true ∧
      (media.lookup slugA).slot? = some editor.slot ∧ (handle0 vol editor).work.checkOutOf 0 editor.slot = some 0 ∧
      (handle0 vol editor).work.handle 0 = some editor ∧ (handle0 vol editor).work.entryNaming 0 = none ∧
      ∀ b, ((handle0 vol editor).work.buffer b).reloc = none) ∧
    ((media.lookup slugD).slot? = none ∧ (media.lookup slugA).slot? = some 0 ∧ vol.work.checkOutOf 0 0 = none) :=
  ⟨⟨served _ _ (by decide +kernel), by unfold Mounted; decide +kernel⟩, by decide +kernel⟩

theorem witness_CancelActsOnTheOutstandingRequest :
    (Heard vol 0 ∧ (vol.work.desk 0).outstanding = none ∧ Heard (listing 2 .none) 0 ∧
      ((listing 2 .none).work.desk 0).outstanding = some ⟨5, some .list, some ⟨0, .all, 2, .none⟩⟩) ∧
    (∀ job ∈ [Job.remount, .kill slugA],
      let s := entry0 (desk0 vol fun k => { k with outstanding := some ⟨5, some (jobKind job), none⟩ }) (waiting job);
      (s.work.line (lineOf 0)).enabled = true ∧ (s.work.line (lineOf 0)).tx.length ≤ 10 ∧ s.work.restarting = false ∧
        (s.work.desk 0).presence = .present ∧ s.work.entryOf 0 = some (0, waiting job) ∧
        s.work.entry 0 = some (waiting job) ∧ (waiting job).active = none) := by
  unfold Heard
  decide +kernel

/-! ### Witnesses: restart and the scheduler -/

theorem witness_RestartRepliesThenClears :
    Served vol 0 .restart ∧ ({ vol.work with restarting := true } : Work).restarting = true ∧
      ∀ d, ∀ op ∈ (vol.work.drive d).queued, op.transferring = true → op.kind ≠ .catalogueWrite ∧ op.kind ≠ .labelWrite :=
  ⟨served _ _ (by decide +kernel), by decide +kernel⟩

theorem witness_DispatchChoosesByLane :
    (entry0 vol (waiting .remount)).work.choose vol.cfg 0 = some (.ordinary, 0, waiting .remount) ∧
      (entry0 vol (waiting .remount)).work.choose (classed .slot).cfg 0 = some (.urgent, 0, waiting .remount) ∧
      vol.work.choose vol.cfg 0 = none := by decide +kernel

/-- A drive that may dispatch the request in slot 0. -/
def ready (s : State) (job : Job) : State := entry0 s (waiting job)

/-- A state in which a request chosen on drive 0 can be served: its drive may dispatch and takes it. -/
abbrev takes (s : State) (e : Entry) : Prop :=
  (s.work.drive 0).enabled = true ∧ s.work.restarting = false ∧ s.work.activeOf 0 = none ∧
    (s.work.drive 0).vol = .mounted ∧ s.work.choose s.cfg 0 = some (.ordinary, 0, e)

theorem witness_DispatchStartsTheRequest :
    (takes (ready reading (.read 0 none 48)) (waiting (.read 0 none 48)) ∧
      (ready reading (.read 0 none 48)).work.handle 0 = some reader) ∧
    (takes (ready vol (.kill slugA)) (waiting (.kill slugA)) ∧ media.lookup slugA = .filed 0 story none ∧
      (ready vol (.kill slugA)).work.holderOf 0 0 = none ∧ ((ready vol (.kill slugA)).work.drive 0).queued = []) ∧
    (let s := ready (handle0 vol { editor with base := some 9999 }) (.file 0);
      takes s (waiting (.file 0)) ∧ s.work.handle 0 = some { editor with base := some 9999 } ∧
        (∀ c, (s.work.drive c).appendWait = []) ∧ (∀ c, ∀ op ∈ (s.work.drive c).ops, op.origin ≠ .request 0) ∧
        (∀ b, (s.work.buffer b).heldBy ≠ some (.request 0)) ∧ (s.work.desk 0).presence = .present) ∧
    (vol.work.activeOf 0 = none ∧ vol.work.choose vol.cfg 0 = none) := by
  decide +kernel

/-- The volume with a block that the label does not list yet. -/
def added : State := drive0 (handle0 vol editor) fun dr => { dr with media := some { media with additions := [70] } }

theorem witness_FileAndFormatStepsQueueWrites :
    (let e := active (.file 0) .barrierDone .plain;
      (entry0 (handle0 vol editor) e).work.activeOf 0 = some (0, e, ⟨.ordinary, false, .barrierDone, .plain⟩) ∧
        media.additions = [] ∧
        (entry0 added e).work.activeOf 0 = some (0, e, ⟨.ordinary, false, .barrierDone, .plain⟩) ∧
        ((entry0 added e).work.drive 0).media.map (·.additions) = some [70]) ∧
    (let e := active (.file 0) .labelDone .plain;
      (entry0 (handle0 vol editor) e).work.activeOf 0 = some (0, e, ⟨.ordinary, false, .labelDone, .plain⟩) ∧
        (entry0 (handle0 vol editor) e).work.handle 0 = some editor) ∧
    (let e := active (.format [0x56] 1 2) .formatting (.format ⟨154, 154, [], none⟩);
      (entry0 vol e).work.activeOf 0 = some (0, e, ⟨.ordinary, false, .formatting, .format ⟨77 * 2, 77 * 2, [], none⟩⟩) ∧
        (entry0 vol e).work.entry 0 = some e ∧ (entry0 vol e).work.ownOps 0 = 0 ∧
        ((entry0 vol e).work.drive 0).queued = []) := by
  decide +kernel

/-! ### Witnesses: drives -/

theorem witness_ReadyLineAndIndexPulse :
    ((base.work.drive 0).enabled = true ∧ (base.work.drive 0).readyLine = !true) ∧
      ((drive0 base fun dr => { dr with enabled := false }).work.drive 0).enabled = false ∧
      (vol.work.drive 0).readyLine = true ∧ (vol.work.drive 0).indexWatch.isSome = true ∧
      (base.work.drive 0).indexWatch = none := by decide +kernel

theorem witness_TakenLevelMountsOrTearsDown :
    (let s := drive0 base fun dr => { dr with readyLine := true, debounce := some 500 };
      (s.work.drive 0).enabled = true ∧ (s.work.drive 0).debounce.isSome = true ∧ (s.work.drive 0).readyLine = true ∧
        (s.work.drive 0).takenLevel = false ∧ (s.work.drive 0).ops = []) ∧
    (let s := drive0 vol fun dr => { dr with readyLine := false, debounce := some 500 };
      (s.work.drive 0).enabled = true ∧ (s.work.drive 0).debounce.isSome = true ∧ (s.work.drive 0).readyLine = false ∧
        (s.work.drive 0).takenLevel = true ∧ (s.work.drive 0).vol.present = true) := by decide +kernel

theorem witness_IndexLossFaultsTheDrive :
    (vol.work.drive 0).indexWatch.isSome = true ∧ (vol.work.drive 0).vol.present = true := by decide +kernel

/-- Drive 0 in a mechanical state at a track with one operation for another. -/
def moving (m : Mech) (at_ : Option Nat) (op : Op) (inward : Bool) : State :=
  drive0 vol fun dr => { dr with mech := m, head := at_, ops := [op], inward, recalSteps := 79 }

/-- What HeadMovements asks of a state whatever the movement. -/
abbrev moves (s : State) (op : Op) : Prop := (s.work.drive 0).current = some op ∧ (s.work.drive 0).runOn = false

theorem witness_HeadMovements :
    (moves (moving .loading none (opOf .readTrack 76 .nobody) false) (opOf .readTrack 76 .nobody) ∧
      moves (moving .loading (some 76) (opOf .recalibrate 0 .nobody) false) (opOf .recalibrate 0 .nobody) ∧
      moves (moving .loading (some 76) (opOf .readTrack 76 .nobody) false) (opOf .readTrack 76 .nobody) ∧
      moves (moving .loading (some 0) (opOf .readTrack 76 .nobody) false) (opOf .readTrack 76 .nobody)) ∧
    (moves (moving .stepping (some 75) (opOf .readTrack 76 .nobody) true) (opOf .readTrack 76 .nobody) ∧
      75 < 76 ∧ ((moving .stepping (some 75) (opOf .readTrack 76 .nobody) true).work.drive 0).inward = true ∧
      moves (moving .stepping (some 1) (opOf .readTrack 0 .nobody) false) (opOf .readTrack 0 .nobody) ∧ 0 < 1 ∧
      ((moving .stepping (some 1) (opOf .readTrack 0 .nobody) false).work.drive 0).inward = false) ∧
    (moves (moving .settling (some 76) (opOf .readTrack 76 .nobody) false) (opOf .readTrack 76 .nobody)) ∧
    (let s := moving .recalibrating none (opOf .recalibrate 0 .nobody) false;
      (s.work.drive 0).mech = .recalibrating ∧ (s.work.drive 0).runOn = false ∧ (s.work.drive 0).recalSteps < 80 ∧
        (s.work.drive 0).inward = false ∧
        80 ≤ ((drive0 s fun dr => { dr with recalSteps := 80 }).work.drive 0).recalSteps) := by
  decide +kernel

/-- Drive 0 transferring an operation with an attempt record. -/
def transfer (op : Op) (a : Attempt) : State :=
  let s := drive0 vol fun dr => { dr with mech := .transferring, ops := [{ op with transferring := true }], attempt := a }
  { s with work := { s.work with owner := some 0 } }

theorem witness_GoodAttemptEndsTheOperation :
    (∀ k ∈ [OpKind.readTrack, .writeSectors, .catalogueWrite, .labelWrite, .formatTrack],
      let s := transfer (opOf k 2 .nobody) { Attempt.none with made := 1, bad := [0, 14], taken := [(0, [1]), (14, [2])] };
      (s.work.drive 0).mech = .transferring ∧ (s.work.drive 0).current = some { opOf k 2 .nobody with transferring := true }) ∧
    ∀ k ∈ [(0 : Fin 15), 14], ([(0, [1]), (14, [2])] : List (Fin 15 × Chars)).lookup k =
      some ((fun k : Fin 15 => if k = 0 then [1] else [2]) k) := by
  decide +kernel

theorem witness_FailedAttemptIsRetried :
    ∀ x ∈ [(false, 0), (false, 2), (false, 3), (true, 3)],
      let a : Attempt := { Attempt.none with made := 1, bad := [14], final := x.1, retries := x.2 }
      let s := transfer (opOf .readTrack 2 .nobody) a;
      (s.work.drive 0).mech = .transferring ∧ (s.work.drive 0).current.any (·.kind == .readTrack) = true ∧
        (s.work.drive 0).attempt.bad ≠ [] ∧ s.work.owner = some 0 ∧ (s.work.drive 0).attempt = a ∧
        s.cfg.retryLimit = 3 := by decide +kernel

theorem witness_BufferTakesTheResult :
    ((buffered.work.buffer 0).sectors[(14 : Fin 15)]).cell ≠ .absent ∧
      ((buffer0 vol fun bu => { bu with heldBy := some (.mount 0) }).work.buffer 0).heldBy ≠ none ∧
      (vol.work.buffer 0).heldBy = none ∧
      ∀ k : Fin 15, ((vol.work.buffer 0).sectors[k]).cell = .absent ∧ Attempt.none.done.lookup k = none := by
  decide +kernel

theorem witness_CatalogueWriteCommitsTheFile :
    let e := active (.file 0) .catalogue .plain
    let s := entry0 (handle0 vol author) e
    let a : Attempt := { Attempt.none with lastClass := some .newImage, entry := some { story with slug := slugB } }
    s.work.entry 0 = some e ∧ e.active = some ⟨.ordinary, false, .catalogue, .plain⟩ ∧ e.drive = 0 ∧
      s.work.handle 0 = some author ∧ author.drive = 0 ∧ (s.work.drive 0).media = some media ∧
      media.catalogue[author.slot] = .reserved slugB 4 ∧ author.base = none ∧ a.lastClass = some .newImage ∧
      a.entry = some { story with slug := slugB } ∧ (s.work.desk e.desk).presence = .present := by
  decide +kernel

theorem witness_WriteFaultFaultsTheVolume :
    let s := transfer (opOf .writeSectors 2 .idleFlush) Attempt.none
    let t := transfer (opOf .labelWrite 0 .labelWrite) Attempt.none;
    ((s.work.drive 0).mech = .transferring ∧
      (s.work.drive 0).current = some { opOf .writeSectors 2 .idleFlush with transferring := true } ∧
      (s.work.drive 0).vol = .mounted) ∧
    (t.work.drive 0).current = some { opOf .labelWrite 0 .labelWrite with transferring := true } := by
  decide +kernel

/-! ### Witnesses: the pool -/

/-- Drive 0 mounting, with its mount on the wait list. -/
def mountWaits : State :=
  let s := drive0 base fun dr => { dr with vol := .mounting, mount := some ⟨.waiting, none, none, []⟩ }
  { s with work := { s.work with waitList := [.mount 0] } }

theorem witness_WaitersAreServed :
    base.work.waitList = [] ∧ mountWaits.work.waitList = [.mount 0] ∧
      (mountWaits.work.drive 0).mount = some ⟨.waiting, none, none, []⟩ ∧ mountWaits.work.bufferOf ⟨0, 0, 0⟩ = none ∧
      mountWaits.work.lru.find? (fun x => (mountWaits.work.buffer x).state == .free) = some 0 ∧
      (mountWaits.work.drive 0).ops.length < 16 := by decide +kernel

/-- Story A's check-out with one staged block, whose sector failed in buffer 0. -/
def failedSector (cells : List (Nat × BlockState)) : State :=
  let s := handle0 vol { editor with staging := some ⟨10, [⟨62, 1⟩], false⟩ }
  let s := drive0 s fun dr => { dr with media := some { media with cells := cells } }
  buffer0 s fun _ => { Buffer.powerOn with
    state := .flushing, key := some ⟨0, 2, 0⟩, pending := [2],
    sectors := Vector.ofFn fun k => ⟨if k = 2 then .dirty (sector 9) else .absent, false⟩ }

/-- A map that lists n blocks from b on. -/
def listed : Nat → Nat → List (Nat × BlockState)
  | 0, _ => []
  | n + 1, b => (b, .filed) :: listed n (b + 1)

theorem listed_not_free : ∀ (n b x : Nat), b ≤ x → x < b + n → cellState (listed n b) x ≠ .free
  | 0, _, _, h, h' => by omega
  | n + 1, b, x, h, h' => by
    simp only [listed, cellState]
    split
    · simp
    · exact listed_not_free n (b + 1) x (by omega) (by omega)

theorem scan_fails (cells : List (Nat × BlockState)) : ∀ (n b : Nat),
    (∀ x, b ≤ x → x < b + n → cellState cells x ≠ .free) → scanFree cells n b = none
  | 0, _, _ => rfl
  | n + 1, b, h => by
    simp only [scanFree, if_neg (h b (by omega) (by omega))]
    exact scan_fails cells n (b + 1) fun x h1 h2 => h x (by omega) (by omega)

theorem witness_RelocationMovesOrLoses :
    (let s := failedSector [(60, .filed), (61, .filed), (62, .staged)]
      let m : Media := { media with cells := [(60, .filed), (61, .filed), (62, .staged)] }
      (s.work.buffer 0).key = some ⟨0, 2, 0⟩ ∧ (s.work.buffer 0).pending = [2] ∧ (s.work.buffer 0).reloc = none ∧
        (s.work.drive 0).media = some m ∧
        s.work.handle 0 = some { editor with staging := some ⟨10, [⟨62, 1⟩], false⟩ } ∧
        blockAt m.label.sides 2 0 2 = 62 ∧ 62 ∈ blocksOf [⟨62, 1⟩] ∧
        (∀ i, i ≠ 0 → s.work.handle i = none) ∧ s.work.entryNaming 0 = none ∧
        (m.allocate.map (·.1)) = some 63 ∧ (replaceBlock [⟨62, 1⟩] 62 63).length ≤ 8 ∧
        ((s.work.buffer 0).sectors[(2 : Fin 15)]).cell = .dirty (sector 9) ∧ (s.work.buffer 0).state = .flushing ∧
        s.work.lru.find? (fun x => (s.work.buffer x).state == .free) = some 1) := by
  decide +kernel

theorem witness_RelocationElsewhere :
    let m : Media := { media with cells := [(60, .filed), (61, .filed), (62, .staged)], cursor := 100 }
    let s := drive0 (failedSector m.cells) fun dr => { dr with media := some m };
    (s.work.drive 0).media = some m ∧ (m.allocate.map (·.1)) = some 100 ∧
      s.work.bufferOf (keyOf 0 m.label.sides 100) = none ∧ (replaceBlock [⟨62, 1⟩] 62 100).length ≤ 8 ∧
      s.work.lru.find? (fun x => (s.work.buffer x).state == .free) = some 1 := by
  decide +kernel

theorem allocate_fails (m : Media) (cells : List (Nat × BlockState)) (h1 : m.label.sides = 2) (h2 : m.cursor = 60)
    (h3 : m.cells = cells) (h4 : scanFree cells 2250 60 = none) : m.allocate = none := by
  simp [Media.allocate, Media.nextFit, h1, h2, h3, h4, firstBlock, dataBlocks, scanFree]

theorem witness_RelocationWithoutBlock :
    ∃ m : Media, m.label = media.label ∧ m.catalogue = media.catalogue ∧ m.allocate = none :=
  ⟨⟨media.label, [], false, listed 2250 60, 60, none, media.catalogue⟩, rfl, rfl,
    allocate_fails _ _ rfl rfl rfl (scan_fails _ _ _ fun x h1 h2 => listed_not_free 2250 60 x h1 h2)⟩

theorem witness_HeadUnloadExpiryFlushes :
    (vol.work.drive 0).unloadTimer.isSome = true ∧ (∀ b : BufId, (vol.work.buffer b).state ≠ .ready) ∧
      (let s := buffer0 vol fun _ => { Buffer.powerOn with
          state := .ready, key := some ⟨0, 2, 0⟩, sectors := Vector.ofFn fun k => ⟨.dirty (sector (byte k.val)), false⟩ };
        (s.work.drive 0).unloadTimer.isSome = true ∧ (s.work.buffer 0).key.any (·.drive == 0) = true ∧
          (s.work.buffer 0).state = .ready ∧ (s.work.buffer 0).dirtySet ≠ []) := by
  decide +kernel

/-! ### Witnesses: lines -/

/-- An enabled line of a format. -/
def p2p (f : LineFormat) (g : Line → Line) : State :=
  lineAt base 1 fun x => g { x with enabled := true, format := f, judgement := .unjudged }

/-- A character without errors. -/
def char (b : Byte) : LineChar := ⟨b, false, false, false⟩

/-- A character with its address mark. -/
def address (b : Byte) : LineChar := ⟨b, true, false, false⟩

theorem witness_CharactersAssembleAFrame :
    (∀ f ∈ [LineFormat.f8N, .f7E], ∀ rx ∈ [Rx.hunting, .assembling, .held, .quiet],
      ((p2p f fun x => { x with rx }).work.line 1).enabled = true ∧
        ((p2p f fun x => { x with rx }).work.line 1).format ≠ .f9M ∧ ((p2p f fun x => { x with rx }).work.line 1).rx = rx) ∧
    ((char 0x21).value.toNat = 0x21 ∧ (char 0x7E).value.toNat = 0x7E ∧ (char 0x20).value.toNat < 0x21 ∧
      0x7E < (char 0x7F).value.toNat ∧ (char 3).value.toNat = 3 ∧ (char 200).value.toNat = 200 ∧
      ¬ (3 ≤ (char 2).value.toNat ∧ (char 2).value.toNat ≤ 200) ∧
      ¬ (3 ≤ (char 201).value.toNat ∧ (char 201).value.toNat ≤ 200)) ∧
    ((List.replicate 120 (0x41 : Byte)).length = 120 ∧ (List.replicate 119 (0x41 : Byte)).length ≠ 120) ∧
    (2 ≤ [(2 : Byte), 3].length ∧ [(2 : Byte), 3].length + 1 ≠ byteAt [2, 3] 1 + 2 ∧
      [(2 : Byte), 3, 0, 0].length + 1 = byteAt [2, 3, 0, 0] 1 + 2 ∧ byteSum (([2, 3, 0, 0] ++ [(1 : Byte)]).drop 1) % 256 ≠ 0) ∧
    (base.work.line 2).enabled = false ∧ (base.work.line 0).format = .f9M := by decide +kernel

/-- The characters of the text frame 05 STATUS 1. -/
def statusText : Chars := [0x30, 0x35, 0x20, 0x53, 0x54, 0x41, 0x54, 0x55, 0x53, 0x20, 0x31]

/-- The characters of the packed STATUS frame, without its check. -/
def statusPacked : Chars := [0x02, 0x04, 0x1A, 0x05, 0x01]

/-- Line 0 in the answer of its polled drop. -/
def answering (g : Line → Line) : State :=
  lineAt base 0 fun x => g { x with rx := .assembling, poll := { x.poll with state := .answer } }

theorem witness_CompletedFrameActsAsItsCommand :
    (let s := p2p .f7E fun x => { x with rx := .assembling, rxChars := statusText };
      (s.work.line 1).enabled = true ∧ (s.work.line 1).rx = .assembling ∧ (s.work.line 1).rxPacked = false ∧
        (s.work.line 1).judgement = .unjudged ∧
        frameOf (.status ⟨8, 5, .text⟩ 1) = some (readText (deskOf 1 1) (s.work.line 1).rxChars)) ∧
    (let s := answering fun x => { x with rxChars := statusPacked, rxPacked := true, judgement := .packed };
      (s.work.line 0).enabled = true ∧ (s.work.line 0).rx = .assembling ∧ (s.work.line 0).rxPacked = true ∧
        (s.work.line 0).format = .f9M ∧ (s.work.line 0).poll.state = .answer ∧ 2 ≤ (s.work.line 0).rxChars.length ∧
        (s.work.line 0).rxChars.length + 1 = byteAt (s.work.line 0).rxChars 1 + 2 ∧
        byteSum (((s.work.line 0).rxChars ++ [0xDC]).drop 1) % 256 = 0 ∧
        frameOf (.status ⟨0, 5, .packed⟩ 1) =
          some (readPacked (deskOf 0 (s.work.line 0).poll.position) ((s.work.line 0).rxChars ++ [0xDC]))) ∧
    (let s := lineAt base 0 fun x =>
        { x with rx := .held, rxFrame := some ⟨env, .status 1⟩, tx := List.replicate 10 ⟨0, .notice false .restarted⟩ };
      (s.work.line 0).enabled = true ∧ (s.work.line 0).rx = .held ∧
        (s.work.line 0).rxFrame = some ⟨env, .status 1⟩ ∧ lineOf env.desk = 0 ∧ (s.work.line 0).tx.length ≤ 10 ∧
        frameOf (.status env 1) = some ⟨env, .status 1⟩ ∧
        10 < ((lineAt s 0 fun x => { x with tx := List.replicate 11 ⟨0, .notice false .restarted⟩ }).work.line 0).tx.length) := by
  decide +kernel

theorem witness_GapsQuietAndMisses :
    ((p2p .f8N fun x => { x with rx := .assembling }).work.line 1).enabled = true ∧
      ((p2p .f8N fun x => { x with rx := .assembling }).work.line 1).format ≠ .f9M ∧
      ((answering id).work.line 0).poll.state = .answer ∧ (base.work.line 0).poll.state ≠ .answer ∧
      (base.work.line 1).enabled = false ∧ ((p2p .f8N fun x => { x with rx := .quiet }).work.line 1).rx = .quiet ∧
      (base.work.line 0).rx ≠ .quiet ∧
      ((lineAt base 0 fun x => { x with poll := { x.poll with state := .window } }).work.line 0).poll.state = .window := by
  decide +kernel

/-- Line 0 with frames to send, and desk 0.1 with a notice. -/
def sending (n : Nat) : State :=
  lineAt (desk0 base fun k => { k with notices := [.restarted], noticesDropped := true }) 0 fun x =>
    { x with tx := List.replicate n ⟨0, .notice false .restarted⟩, dropLastAdmitted := 1 }

theorem witness_FrameSentAndNoticeAdmitted :
    ((base.work.line 0).tx = [] ∧ 4 ≤ (((sending 5).work.line 0).tx.drop 1).length ∧ 4 ≤ ((sending 4).work.line 0).tx.length ∧
      ∀ k, ¬ (lineOf k = 0 ∧ (base.work.desk k).presence = .present ∧ (base.work.desk k).notices ≠ [])) ∧
    (((sending 3).work.line 0).enabled = true ∧ ((sending 3).work.line 0).tx.length = 3 ∧
      (lineOf 0 = 0 ∧ ((sending 3).work.desk 0).presence = .present ∧ ((sending 3).work.desk 0).notices = [.restarted]) ∧
      1 ≤ ((sending 3).work.line 0).dropLastAdmitted ∧ ((sending 3).work.line 0).dropLastAdmitted ≤ 8 ∧
      ∀ j, lineOf j = 0 ∧ ((sending 3).work.desk j).presence = .present ∧ ((sending 3).work.desk j).notices ≠ [] →
        (dropOf 0 + 15 - 1) % 8 ≤ (dropOf j + 15 - 1) % 8) := by decide +kernel

/-- Line 0 with its poll sequencer in a state. -/
def polling (st : PollState) (cycle : Nat) : State :=
  lineAt base 0 fun x => { x with poll := ⟨st, 1, cycle, none⟩ }

theorem witness_PollCycle :
    (∀ st ∈ [PollState.ready, .polling, .window, .answer, .pause], ((polling st 7).work.line 0).enabled = true ∧
      ((polling st 7).work.line 0).format = .f9M ∧ ((polling st 7).work.line 0).poll.state = st ∧
      ((polling st 7).work.line 0).rx = .hunting ∧ ((polling st 7).work.line 0).tx = []) ∧
    ((desk0 (polling .ready 7) fun k => { k with presence := .absent }).work.desk (deskOf 0 1)).presence = .absent ∧
    ((polling .ready 0).work.line 0).poll.cycle = 0 ∧ ((sending 1).work.line 0).tx ≠ [] ∧
    ((address 1).mark = true ∧ (address 1).framingError = false ∧ (address 1).value = byte 1) ∧
    ¬ ((address 2).value = byte 1) := by decide +kernel

theorem witness_DeskReadyMakesPresence :
    ((p2p .f8N id).work.line 1).deskReady = false ∧ ((p2p .f8N id).work.line 1).enabled = true ∧
      ((p2p .f8N id).work.line 1).format ≠ .f9M ∧
      ((p2p .f8N fun x => { x with deskReady := true }).work.line 1).deskReady = true ∧
      ((p2p .f8N fun x => { x with negation := some 1000 }).work.line 1).negation.isSome = true := by decide +kernel

/-! ### Witnesses: further clauses of settings, editions, the catalogue and the handles -/

theorem witness_SetChangesItem_lines :
    (Served base 0 .set ∧ (base.work.line 3).enabled = false ∧ 255 ≠ dropMask (base.work.line 3).drops ∧
      (∀ l, (base.work.line l).enabled = true → (base.work.line l).generator ≠ .q) ∧ 192 ≠ base.cfg.rateQ / 100) ∧
    (let s := lineAt base 0 fun x => { x with generator := .q };
      Served s 0 .set ∧ (∀ l, (s.work.line l).enabled = true → (s.work.line l).generator ≠ .p) ∧ 12 ≠ s.cfg.rateP / 100) :=
  ⟨⟨served _ _ (by decide), by decide⟩, served _ _ (by decide), by decide⟩

/-- The volume at minute 59 with basket 3 closed by an entry that reopens at 60 and by another that stays closed. -/
def twiceClosed : State :=
  let s := handle0 (atMinute vol 59 { closing with state := .closed }) { editor with state := .frozen }
  { s with cfg := { s.cfg with editions := s.cfg.editions.set 1 { closing with reopen := 100, state := .closed } } }

/-- The check-out of story A with an edition entry at a minute. -/
def editing (m : Nat) (e : Edition) : State := handle0 (atMinute vol m e) editor

theorem witness_EditionChange_commands :
    (let s := editing 0 closing; let t := after (.clock env 1) s;
      exec (.clock env 1) s = .next t ∧ (s.cfg.editions[0]).state ≠ .closed ∧ (t.cfg.editions[0]).state = .closed ∧
        3 ∈ (t.cfg.editions[0]).baskets ∧ s.work.handle 0 = some editor ∧ ∀ j, j ≠ 0 → s.work.handle j = none) ∧
    (let s := editing 5 { closing with enabled := false, state := .disabled };
      let c := Instr.editionWrite env 0 ⟨[0x45], 1, 1, 60, 0, [3]⟩; let t := after c s;
      exec c s = .next t ∧ (s.cfg.editions[0]).state ≠ .closed ∧ (t.cfg.editions[0]).state = .closed ∧
        3 ∈ (t.cfg.editions[0]).baskets) ∧
    (let s := { editing 0 closing with cfg := { (editing 0 closing).cfg with classes := (classed .slot).cfg.classes } };
      let t := after .minuteExpiry s;
      exec .minuteExpiry s = .next t ∧ s.cfg.cls 0 = .slot ∧ (t.cfg.editions[0]).state = .closed) ∧
    (let t := after .minuteExpiry twiceClosed;
      exec .minuteExpiry twiceClosed = .next t ∧ (twiceClosed.cfg.editions[0]).state = .closed ∧
        (t.cfg.editions[0]).state ≠ .closed ∧ (t.cfg.editions[1]).state = .closed ∧ 3 ∈ (t.cfg.editions[1]).baskets) ∧
    (let s := editing 89 warned; let t := after .minuteExpiry s;
      exec .minuteExpiry s = .next t ∧ (s.cfg.editions[0]).state ≠ .warning ∧ (t.cfg.editions[0]).state = .warning ∧
        t.cfg.clock = .running 90 ∧ ∀ i : Fin 6, i ≠ 0 → (t.cfg.editions[i]).state = .disabled) := by
  refine ⟨⟨rfl, ?_⟩, ⟨rfl, ?_⟩, ⟨rfl, ?_⟩, ⟨rfl, ?_⟩, rfl, ?_⟩ <;> decide +kernel

theorem witness_ListSendsItsFrames_refusals :
    Served (drive0 base fun dr => { dr with enabled := false }) 0 .list ∧
      ((drive0 base fun dr => { dr with enabled := false }).work.drive 0).enabled = false ∧ Served base 0 .list ∧
      (base.work.drive 0).enabled = true ∧ (base.work.drive 0).vol.present = false ∧
      ((drive0 (listing 2 .volumeGone) fun dr => { dr with vol := .absent, media := none }).work.drive 0).media = none ∧
      ∀ f ∈ ((listing 2 .none).work.line 0).frames, TxFrame.unfinished 0 f = false :=
  ⟨served _ _ (by decide), by decide, served _ _ (by decide), by decide, by decide, by decide +kernel, by decide +kernel⟩

/-- Desk 0.1 with two handles. -/
def handsFull : State := { reading with work := reading.work.setHandle 1 (some { reader with slot := 3 }) }

/-- A state with an access rule for every basket. -/
def ruled (g : Grant) : State :=
  { vol with cfg := { vol.cfg with rules := vol.cfg.rules.set 0 ⟨true, 0, 63, false, ⟨false, false, false, false⟩, g⟩ } }

theorem witness_OpenEditRefusals_others :
    (Served vol 0 .openStory ∧ Served vol 0 .create ∧ Served vol 0 .kill ∧ slugOk [] = false ∧
      Served (drive0 vol fun dr => { dr with enabled := false }) 0 .kill ∧
      ((drive0 vol fun dr => { dr with enabled := false }).work.drive 0).enabled = false ∧ Served base 0 .kill ∧
      (base.work.drive 0).vol.present = false ∧ (base.work.drive 0).vol ≠ .mounting) ∧
    (Served (ruled .none) 0 .openStory ∧ Mounted (ruled .none) 0 media ∧
      grantFor (ruled .none).cfg ((ruled .none).cfg.cls 0) 3 = .none ∧
      grantFor (ruled .deposit).cfg ((ruled .deposit).cfg.cls 0) 3 = .deposit) ∧
    (Served handsFull 0 .openStory ∧ Served handsFull 0 .create ∧ Mounted handsFull 0 media ∧
      handsFull.work.freeHandle 0 = none ∧ grantFor handsFull.cfg (handsFull.cfg.cls 0) 3 = .readWrite ∧
      (∃ i : CatSlot, media.catalogue[i] = .empty)) ∧
    (basketClosed (atMinute vol 5 { closing with state := .closed }).cfg 3 = true ∧
      spoiled.lookup slugD = .none ∧ (∀ i : CatSlot, spoiled.catalogue[i] ≠ .empty) ∧
      Mounted (drive0 vol fun dr => { dr with media := some spoiled }) 0 spoiled) ∧
    ((handle0 vol author).work.holderOf 0 1 = some 0 ∧ media.lookup slugB = .reserved 1 4 ∧
      (handle0 vol editor).work.holderOf 0 0 = some 0 ∧ Served (handle0 vol editor) 0 .kill) :=
  ⟨⟨served _ _ (by decide +kernel), served _ _ (by decide +kernel), served _ _ (by decide +kernel), by decide +kernel,
      served _ _ (by decide +kernel), by decide +kernel, served _ _ (by decide +kernel), by decide +kernel⟩,
    ⟨served _ _ (by decide +kernel), by unfold Mounted; decide +kernel⟩,
    ⟨served _ _ (by decide +kernel), served _ _ (by decide +kernel), by unfold Mounted; decide +kernel,
      by decide +kernel, by decide +kernel, 3, by decide +kernel⟩,
    by unfold Mounted; decide +kernel, by decide +kernel, by decide +kernel, by decide +kernel,
    served _ _ (by decide +kernel)⟩

theorem witness_HandleIsChecked_others :
    Served vol 0 .discard ∧ Served vol 0 .write ∧ (192 ≤ formLimit .packed ∧ formLimit .packed < 193) ∧
      (48 ≤ formLimit .text ∧ formLimit .text < 49) ∧ Served (handle0 vol lost) 0 .discard ∧
      Served (handle0 vol lost) 0 .read :=
  ⟨served _ _ (by decide +kernel), served _ _ (by decide +kernel), by decide, by decide, served _ _ (by decide +kernel),
    served _ _ (by decide +kernel)⟩

/-- A state whose request queue is full. -/
def crowded (s : State) : State :=
  { s with work := { s.work with queue := Vector.replicate 24 (some (waiting .remount)) } }

theorem witness_QueuedRequestWaits_refusals :
    (((drive0 writing fun dr => { dr with enabled := false }).work.drive 0).enabled = false ∧
      (drive0 writing fun dr => { dr with enabled := false }).work.handle 0 =
        some { editor with staging := some ⟨32720, [], false⟩ } ∧
      Served (drive0 writing fun dr => { dr with enabled := false }) 0 .write) ∧
    (let s := drive0 writing fun dr => { dr with vol := .unreadable };
      (s.work.drive 0).enabled = true ∧ (s.work.drive 0).vol.present = false ∧ (s.work.drive 0).vol ≠ .mounting ∧
        Served s 0 .file) ∧
    ((∀ p, (crowded writing).work.entry p ≠ none) ∧ Served (crowded writing) 0 .write ∧ Served (crowded writing) 0 .file ∧
      Served (crowded reading) 0 .read ∧ Served (crowded vol) 0 .kill ∧ Served (crowded vol) 0 .format ∧
      Served (crowded vol) 0 .remount ∧ (crowded vol).work.holderOf 0 0 = none ∧
      (crowded reading).work.validPieces 0 (readPieces (reading.work.versionOf reader).2 (reading.work.versionOf reader).1 0 1) =
        none) ∧
    ¬ (nameOk [] = true) ∧ ¬ (1000000 ≤ 999999) :=
  ⟨⟨by decide +kernel, by decide +kernel, served _ _ (by decide +kernel)⟩,
    ⟨by decide +kernel, by decide +kernel, by decide +kernel, served _ _ (by decide +kernel)⟩,
    ⟨by decide +kernel, served _ _ (by decide +kernel), served _ _ (by decide +kernel), served _ _ (by decide +kernel),
      served _ _ (by decide +kernel), served _ _ (by decide +kernel), served _ _ (by decide +kernel), by decide +kernel⟩,
    by decide +kernel⟩

/-! ### Witnesses: staging releases, CANCEL of an ACTIVE request, dispatch -/

/-- A check-out with two staged blocks, of which the sector of the first awaits its relocation. -/
def staged : State :=
  let s := failedSector [(60, .filed), (61, .filed), (62, .staged), (63, .staged)]
  handle0 s { editor with staging := some ⟨300, [⟨62, 2⟩], false⟩ }

theorem witness_DiscardReleasesTheStaging :
    Served staged 0 .discard ∧ staged.work.handle 0 = some { editor with staging := some ⟨300, [⟨62, 2⟩], false⟩ } ∧
      ((staged.work.drive 0).media.map fun m => (m.label, cellsFrom 0 m.cells)) = some (media.label, true) ∧
      (staged.work.drive 0).vol ≠ .writeFaulted ∧ (∀ b, (staged.work.buffer b).reloc = none) ∧
      (∀ a b, (staged.work.buffer a).state ≠ .free → (staged.work.buffer b).state ≠ .free →
        (staged.work.buffer a).key = (staged.work.buffer b).key → a = b) ∧
      blocksOf [⟨62, 2⟩] = [62, 63] ∧ [62].Sublist [62, 63] ∧
      ((staged.work.buffer 0).state ≠ .free ∧ (staged.work.buffer 0).key = some (keyOf 0 2 62) ∧
        (2 : Fin 15) = blockSector 62 ∧ (2 : Fin 15) ∈ (staged.work.buffer 0).pending ∧
        ((staged.work.buffer 0).sectors[(2 : Fin 15)]).cell.isDirty = true) ∧
      ((staged.work.buffer 0).key = some (keyOf 0 2 63) ∧ blockSector 63 ∉ (staged.work.buffer 0).pending) ∧
      (let s := drive0 staged fun dr => { dr with vol := .writeFaulted };
        Served s 0 .discard ∧ (s.work.drive 0).vol = .writeFaulted) :=
  ⟨served _ _ (by decide +kernel), by decide +kernel, by decide +kernel, by decide +kernel, by decide +kernel,
    by decide +kernel, by decide +kernel, by decide +kernel, by decide +kernel, by decide +kernel,
    served _ _ (by decide +kernel), by decide +kernel⟩

/-- The volume of `staged`. -/
def stagedMedia : Media := { media with cells := [(60, .filed), (61, .filed), (62, .staged), (63, .staged)] }

/-- The check-out of `staged` in the hands of desk 0.2, which is PRESENT. -/
def brokenInto (newStory : Bool) : State :=
  let s := handle0 staged { editor with desk := 1, slot := if newStory then 1 else 0,
                                        staging := some ⟨300, [⟨62, 2⟩], newStory⟩ }
  { s with work := s.work.updDesk 1 fun k => { k with presence := .present } }

/-- What a BREAK by desk 0.1 of a check-out of desk 0.2 asks of a state. -/
abbrev breaks (s : State) (newStory : Bool) : Prop :=
  (s.work.drive 0).enabled = true ∧ (s.work.drive 0).vol.present = true ∧ (s.work.drive 0).media = some stagedMedia ∧
    (stagedMedia.lookup (if newStory then slugB else slugA)).slot? = some (if newStory then 1 else 0) ∧
    s.work.checkOutOf 0 (if newStory then 1 else 0) = some 0 ∧
    (s.work.handle 0).bind (·.staging) = some ⟨300, [⟨62, 2⟩], newStory⟩ ∧ cellsFrom 0 stagedMedia.cells = true ∧
    (∀ b, (s.work.buffer b).reloc = none) ∧ (s.work.desk 1).presence = .present ∧
    (∀ a b, (s.work.buffer a).state ≠ .free → (s.work.buffer b).state ≠ .free →
      (s.work.buffer a).key = (s.work.buffer b).key → a = b) ∧
    ∀ b, ∀ k ∈ (s.work.buffer b).pending, ((s.work.buffer b).sectors[k]).cell.isDirty = true

theorem witness_BreakReleasesTheStaging :
    Served (brokenInto false) 0 .breakIt ∧
    (∀ newStory ∈ [true, false], breaks (brokenInto newStory) newStory ∧
      (brokenInto newStory).work.entryNaming 0 = none) ∧
    (∀ job ∈ [Job.write 0 300 [7], .file 0, .read 0 none 10], let e := { waiting job with desk := 1 };
      breaks (entry0 (brokenInto false) e) false ∧ (entry0 (brokenInto false) e).work.entryNaming 0 = some (0, e) ∧
        e.active = none) ∧
    (∀ job ∈ [Job.write 0 300 [7], .file 0, .read 0 none 10], let e := { active job .run .plain with desk := 1 };
      breaks (entry0 (brokenInto false) e) false ∧ (entry0 (brokenInto false) e).work.entryNaming 0 = some (0, e) ∧
        e.active = some ⟨.ordinary, false, .run, .plain⟩) := by
  refine ⟨served _ _ (by decide +kernel), ?_, ?_, ?_⟩ <;> decide +kernel

theorem witness_BreakRefusals :
    Served vol 0 .breakIt ∧ 4 ≤ 4 ∧ slugOk [] = false ∧ slugOk slugA = true ∧
      ((drive0 vol fun dr => { dr with enabled := false }).work.drive 0).enabled = false ∧
      (vol.work.drive 1).enabled = true ∧ (vol.work.drive 1).vol.present = false ∧ Mounted vol 0 media :=
  ⟨served _ _ (by decide +kernel), by unfold Mounted; decide +kernel⟩

/-- An ACTIVE request of desk 0.1, its outstanding one, with operations of drive 0. -/
def ongoing (s : State) (job : Job) (p : Place) (g : Progress) (ops : List Op) : State :=
  drive0 (entry0 (desk0 s fun k => { k with outstanding := some ⟨5, some (jobKind job), none⟩ }) (active job p g)) fun dr =>
    { dr with ops }

/-- What a CANCEL asks of a state whatever the request that it finds ACTIVE. -/
abbrev cancels (s : State) (e : Entry) : Prop :=
  ((s.work.line (lineOf 0)).enabled = true ∧ (s.work.line (lineOf 0)).tx.length ≤ 10 ∧ s.work.restarting = false) ∧
    (s.work.desk 0).presence = .present ∧ (s.work.desk 0).outstanding = some ⟨e.tag, some (jobKind e.job), none⟩ ∧
    s.work.entryOf 0 = some (0, e) ∧ s.work.entry 0 = some e ∧ e.desk = 0

/-- The FORMAT of drive 0 with track-sides ended. -/
def formats (ended : Nat) : Progress := .format ⟨min 154 (ended + 7), ended, [], none⟩

/-- The check-out with the blocks 62 to 64 staged, the tail in 63, and their sectors in buffer 0, that of 62 written. -/
def tailed (tail : Cell) : State :=
  let s := failedSector [(60, .filed), (61, .filed), (62, .staged), (63, .staged), (64, .staged)]
  buffer0 (handle0 s { editor with staging := some ⟨300, [⟨62, 3⟩], false⟩ }) fun _ => { Buffer.powerOn with
    state := .ready, key := some ⟨0, 2, 0⟩,
    sectors := Vector.ofFn fun k => ⟨if k = 2 then .valid (sector 1) else if k = 3 then tail else if k = 4 then .dirty (sector 5)
      else .absent, false⟩ }

/-- A CANCEL that finds an ACTIVE WRITE, whose new block is 64 or none, before its last byte is placed. -/
theorem witness_CancelOfAnActiveWrite : ∀ tail ∈ [Cell.dirty (sector 9), .valid (sector 9)], ∀ newBlock ∈ [some 64, none],
    let g := Progress.write true newBlock
    let s := ongoing (tailed tail) (.write 0 300 [1]) .run g []
    cancels s (active (.write 0 300 [1]) .run g) ∧ (s.work.drive 0).queued = [] ∧
      s.work.handle 0 = some { editor with staging := some ⟨300, [⟨62, 3⟩], false⟩ } ∧
      (s.work.drive 0).media.any (fun m => cellsFrom 0 m.cells && m.label.sides == 2) = true ∧
      s.work.bufferOf (keyOf 0 2 64) = some 0 ∧ ((s.work.buffer 0).sectors[blockSector 64]).cell.isDirty = true ∧
      (blocksOf [⟨62, 3⟩])[300 / 256]? = some 63 ∧ s.work.bufferOf (keyOf 0 2 63) = some 0 ∧ newBlock ≠ some 63 ∧
      ((s.work.buffer 0).sectors[blockSector 63]).cell = tail := by
  decide +kernel

/-- R60: the new block is dropped, and of the tail 300 − 256 = 44 bytes stay, with zeros behind them. -/
theorem test_cancelled_write_is_set_back :
    let s := ongoing (tailed (.dirty (sector 9))) (.write 0 300 [1]) .run (.write true (some 64)) []
    let t := after (.cancel env) s
    ((t.work.buffer 0).sectors[(4 : Fin 15)]).cell = .absent ∧
      ((t.work.buffer 0).sectors[(3 : Fin 15)]).cell = .dirty (List.replicate 44 9 ++ List.replicate 212 0) := by
  decide +kernel

theorem witness_CancelOfAnActiveRequest :
    (let g := Progress.read 0 [⟨60, 0, 10⟩] [];
      cancels (ongoing reading (.read 0 none 10) .run g []) (active (.read 0 none 10) .run g) ∧
        ((ongoing reading (.read 0 none 10) .run g []).work.drive 0).queued = [] ∧
        cancels (ongoing reading (.read 0 none 10) (.filling 0) g
          [{ opOf .readTrack 2 (.request 0) with transferring := true }]) (active (.read 0 none 10) (.filling 0) g)) ∧
    (let s := ongoing (drive0 vol fun dr => { dr with media := some killed }) (.kill slugA) .catalogue .plain [];
      cancels s (active (.kill slugA) .catalogue .plain) ∧ (s.work.drive 0).media = some killed ∧
        killed.lookup slugA = .filed 0 story (some 1)) ∧
    (let g := Progress.write true (some 63);
      let s := ongoing staged (.write 0 300 [1]) .run g [];
      cancels s (active (.write 0 300 [1]) .run g) ∧
        s.work.handle 0 = some { editor with staging := some ⟨300, [⟨62, 2⟩], false⟩ } ∧
        (s.work.drive 0).media.any (fun m => cellsFrom 0 m.cells) = true) ∧
    cancels (ongoing vol .remount .mounting .plain []) (active .remount .mounting .plain) ∧
    (∀ n ∈ [0, 5, 152, 153, 154],
      let job := Job.format [0x56] 1 2;
      let s := ongoing vol job .formatting (formats n) [{ opOf .formatTrack (n / 2) (.request 0) with transferring := true }];
      cancels s (active job .formatting (formats n)) ∧
        cancels (ongoing vol job .formatting (formats n) [opOf .recalibrate 0 (.request 0)])
          (active job .formatting (formats n)) ∧
        (s.work.drive 0).current = some { opOf .formatTrack (n / 2) (.request 0) with transferring := true }) := by
  refine ⟨?_, ?_, ?_, ?_, ?_⟩ <;> decide +kernel

/-- What a dispatch asks of a state that it changes no operation of before. -/
abbrev unhampered (s : State) : Prop :=
  (∀ c, (s.work.drive c).appendWait = []) ∧ (∀ c, ∀ op ∈ (s.work.drive c).ops, op.origin ≠ .request 0) ∧
    (∀ b, (s.work.buffer b).heldBy ≠ some (.request 0)) ∧ (s.work.desk 0).presence = .present

/-- The check-out of story A with a staging. -/
def staging (st : Staging) : State := handle0 vol { editor with staging := some st }

theorem witness_DispatchStartsAWrite :
    (let s := ready (handle0 vol { editor with state := .frozen }) (.write 0 0 [7]);
      takes s (waiting (.write 0 0 [7])) ∧ unhampered s ∧ s.work.handle 0 = some { editor with state := .frozen }) ∧
    (let s := ready (staging ⟨10, [⟨62, 1⟩], false⟩) (.write 0 10 [7]);
      takes s (waiting (.write 0 10 [7])) ∧ needsBlock 10 1 = false) ∧
    (let s := ready (staging ⟨0, [], false⟩) (.write 0 0 [7]);
      takes s (waiting (.write 0 0 [7])) ∧ unhampered s ∧ needsBlock 0 1 = true ∧ (s.work.drive 0).media = some media ∧
        firstBlock 2 = 60 ∧ dataBlocks 2 = 2250 ∧ media.cursor = 60 ∧ cellState media.cells 62 = .free ∧
        cellState media.cells 60 ≠ .free ∧ cellState media.cells 61 ≠ .free ∧ addBlock [] 62 = some [⟨62, 1⟩]) ∧
    (cellState [(2309, .filed)] 60 = .free ∧ cellState [(2309, .filed)] 2309 ≠ .free ∧ 2309 + 1 = 60 + 2250) ∧
    (addBlock ((List.range 8).map fun i => ⟨100 + 2 * i, 1⟩) 62 = none ∧ cellsFrom 0 media.cells = true) ∧
    ∀ x, 60 ≤ x → x < 60 + 2250 → cellState (listed 2250 60) x ≠ .free := by
  refine ⟨?_, ?_, ?_, ?_, ?_, fun x h1 h2 => listed_not_free 2250 60 x h1 h2⟩ <;> decide +kernel

/-- The check-out of story A with block 62 staged and its sector DIRTY in buffer 0. -/
def dirtied : State :=
  buffer0 (staging ⟨10, [⟨62, 1⟩], false⟩) fun _ => { Buffer.powerOn with
    state := .ready, key := some ⟨0, 2, 0⟩,
    sectors := Vector.ofFn fun k => ⟨if k = 2 then .dirty (sector 9) else .absent, false⟩ }

theorem witness_DispatchStartsAFile :
    (let s := ready (handle0 vol { editor with state := .frozen }) (.file 0);
      takes s (waiting (.file 0)) ∧ unhampered s ∧ s.work.handle 0 = some { editor with state := .frozen }) ∧
    (let s := ready dirtied (.file 0);
      takes s (waiting (.file 0)) ∧ editor.base ≠ some 9999 ∧ (s.work.buffer 0).state = .ready ∧
        62 ∈ blocksOf [⟨62, 1⟩] ∧ ((s.work.sectorOf 0 (s.work.sides 0) 62).any fun x => x.2.cell.isDirty) = true) := by
  decide +kernel

/-- A state in which a FORMAT or REMOUNT chosen on drive 0 can be served. -/
abbrev picks (s : State) (e : Entry) : Prop :=
  (s.work.drive 0).enabled = true ∧ s.work.restarting = false ∧ s.work.activeOf 0 = none ∧
    (s.work.drive 0).vol ≠ .mounting ∧ s.work.choose s.cfg 0 = some (.ordinary, 0, e) ∧ unhampered s

theorem witness_DispatchStartsAFormatOrRemount :
    (∀ v ∈ [VolState.absent, .writeFaulted, .writeProtected, .foreign, .unreadable, .mounted],
      let s := ready (drive0 vol fun dr => { dr with vol := v }) (.format [0x56] 1 2);
      picks s (waiting (.format [0x56] 1 2)) ∧ (s.work.drive 0).vol = v ∧ s.work.ownOps 0 = 0 ∧
        ∀ h, s.work.handle h = none) ∧
    (let s := ready reading (.format [0x56] 1 2);
      picks s (waiting (.format [0x56] 1 2)) ∧ s.work.handle 0 = some reader ∧ reader.isDefunct = false) ∧
    (let s := ready (drive0 vol fun dr => { dr with protectLine := true }) (.format [0x56] 1 2);
      picks s (waiting (.format [0x56] 1 2)) ∧ (s.work.drive 0).protectLine = true) ∧
    (∀ level ∈ [true, false], ∀ m ∈ [Mech.idle, .faulted],
      let s := ready (drive0 reading fun dr => { dr with takenLevel := level, mech := m }) .remount;
      picks s (waiting .remount) ∧ (s.work.drive 0).takenLevel = level ∧ (s.work.drive 0).mech = m) ∧
    ((drive0 vol fun dr => { dr with vol := .mounting }).work.drive 0).vol = .mounting := by
  refine ⟨?_, ?_, ?_, ?_, ?_⟩ <;> decide +kernel

/-! ### Witnesses: what goes on at once -/

/-- A state whose buffer 0 is READY in the hands of the request in slot 0. -/
def inHand (s : State) : State := buffer0 s fun _ => { Buffer.powerOn with
  state := .ready, key := some ⟨0, 2, 0⟩, heldBy := some (.request 0) }

/-- What a step of the ACTIVE request in slot 0 asks of a state. -/
abbrev steps (s : State) (e : Entry) (hd : Handle) : Prop :=
  s.work.activeOf 0 = e.active.map (fun a => (0, e, a)) ∧ s.work.entry 0 = some e ∧ e.drive = 0 ∧
    e.active.any (·.cancelNoted) = false ∧ s.work.handle 0 = some hd ∧ hd.drive = 0

/-- What asking for a FREE buffer asks of a state. -/
abbrev obtains (s : State) (key : TrackKey) : Prop :=
  s.work.poolDue = false ∧ s.work.bufferOf key = none ∧
    s.work.lru.find? (fun x => (s.work.buffer x).state == .free) = some 0

/-- The ACTIVE READ of the first ten bytes of story A. -/
def readStep (p : Place) (todo : List Piece) : Entry := active (.read 0 none 10) p (.read 0 todo [])

theorem witness_ReadGoesOn :
    (steps (entry0 reading (readStep .run [])) (readStep .run []) reader ∧
      ((entry0 reading (readStep .run [])).work.desk 0).presence = .present) ∧
    (∀ p ∈ [Place.run, .evicted, .holding 0],
      steps (entry0 buffered (readStep p [⟨60, 0, 10⟩])) (readStep p [⟨60, 0, 10⟩]) reader ∧
        (entry0 buffered (readStep p [⟨60, 0, 10⟩])).work.validPieces 0 [⟨60, 0, 10⟩] = some (List.replicate 10 0) ∧
        ((entry0 buffered (readStep p [⟨60, 0, 10⟩])).work.buffer 0).state = .ready) ∧
    (steps (entry0 reading (readStep .run [⟨60, 0, 10⟩])) (readStep .run [⟨60, 0, 10⟩]) reader ∧
      (entry0 reading (readStep .run [⟨60, 0, 10⟩])).work.validPieces 0 [⟨60, 0, 10⟩] = none ∧
      obtains (entry0 reading (readStep .run [⟨60, 0, 10⟩])) (keyOf 0 2 60)) ∧
    (steps (entry0 (inHand reading) (readStep (.holding 0) [⟨60, 0, 10⟩])) (readStep (.holding 0) [⟨60, 0, 10⟩]) reader ∧
      (entry0 (inHand reading) (readStep (.holding 0) [⟨60, 0, 10⟩])).work.validPieces 0 [⟨60, 0, 10⟩] = none ∧
      ((inHand reading).work.buffer 0).state = .ready ∧ ((inHand reading).work.buffer 0).key = some ⟨0, 2, 0⟩) := by
  refine ⟨?_, ?_, ?_, ?_⟩ <;> decide +kernel

/-- A state with the ACTIVE WRITE of one byte behind those staged. -/
def writeStep (s : State) (n : Nat) (p : Place) (tailPlaced : Bool) (newBlock : Option Nat) : State :=
  entry0 s (active (.write 0 n [7]) p (.write tailPlaced newBlock))

/-- A state whose sector 2 of buffer 0, that of block 62, is in a cell's state. -/
def sector2 (s : State) (c : Cell) : State :=
  buffer0 (inHand s) fun bu => { bu with sectors := bu.sectors.set 2 ⟨c, false⟩ }

theorem witness_WriteGoesOn :
    (let st : Staging := ⟨10, [⟨62, 1⟩], false⟩;
      steps (writeStep (staging st) 10 .run true none) (active (.write 0 10 [7]) .run (.write true none))
          { editor with staging := some st } ∧
        steps (writeStep (staging st) 10 .run false none) (active (.write 0 10 [7]) .run (.write false none))
          { editor with staging := some st } ∧
        (blocksOf [⟨62, 1⟩])[10 / 256]? = some 62 ∧ obtains (writeStep (staging st) 10 .run false none) (keyOf 0 2 62)) ∧
    (let s := writeStep (inHand (staging ⟨10, [⟨92, 1⟩], false⟩)) 10 (.holding 0) false none;
      (s.work.buffer 0).key = some ⟨0, 2, 0⟩ ∧ (⟨0, 2, 0⟩ : TrackKey) ≠ keyOf 0 2 92 ∧
        (blocksOf [⟨92, 1⟩])[10 / 256]? = some 92) ∧
    (∀ c ∈ [Cell.absent, .valid (sector 9), .dirty (sector 9)],
      let s := writeStep (sector2 (staging ⟨10, [⟨62, 1⟩], false⟩) c) 10 (.holding 0) false none;
      (s.work.buffer 0).key = some (keyOf 0 2 62) ∧ ((s.work.buffer 0).sectors[blockSector 62]).cell = c ∧
        (s.work.buffer 0).state = .ready) ∧
    (let s := writeStep (inHand (staging ⟨0, [⟨62, 1⟩], false⟩)) 0 (.holding 0) false (some 62);
      steps s (active (.write 0 0 [7]) (.holding 0) (.write false (some 62)))
          { editor with staging := some ⟨0, [⟨62, 1⟩], false⟩ } ∧
        (s.work.buffer 0).key = some (keyOf 0 2 62) ∧ (s.work.desk 0).presence = .present) := by
  refine ⟨?_, ?_, ?_, ?_⟩ <;> decide +kernel

/-- Drive 0 in a mount that has read a track whose sector 0 is in a cell's state, the others as unreadable as it. -/
def mountRead (p : MountPlace) (label : Option Label) (track0 : List (Option Chars)) (c : Cell) : State :=
  buffer0 (drive0 base fun dr => { dr with vol := .mounting, mount := some ⟨p, some 0, label, track0⟩ }) fun _ =>
    { Buffer.powerOn with state := .ready, key := some ⟨0, 0, 0⟩, heldBy := some (.mount 0),
                          sectors := Vector.replicate 15 ⟨c, false⟩ }

theorem witness_MountEnds :
    (base.work.activeOf 0 = none ∧
      (entry0 (mountRead .track0 none [] .absent) (active .remount .mounting .plain)).work.activeOf 0 =
        some (0, active .remount .mounting .plain, ⟨.ordinary, false, .mounting, .plain⟩)) ∧
    (((mountRead .track0 none [] .absent).work.drive 0).mount = some ⟨.track0, some 0, none, []⟩ ∧
      ((mountRead .track0 none [] .absent).work.buffer 0).readable 0 = none ∧
      ((mountRead .track0 none [] (.valid (sector 0))).work.buffer 0).readable 0 = some (sector 0)) ∧
    (readLabel (sector 0) = .foreign ∧ readLabel (labelImage ⟨[], 1, 2, []⟩) = .invalid ∧
      readLabel (labelImage media.label) = .valid media.label) ∧
    (let read := fun c => (List.finRange 15).map ((mountRead .track1 (some media.label) [] c).work.buffer 0).readable;
      ((mountRead .track1 (some media.label) [] .absent).work.drive 0).mount = some ⟨.track1, some 0, some media.label, []⟩ ∧
        8 < ((List.replicate 14 (some (sector 0)) ++ read .absent).countP Option.isNone) ∧
        (List.replicate 8 none ++ List.replicate 6 (some (sector 0)) ++ read (.valid (sector 0))).countP Option.isNone ≤ 8) ∧
    ((waiting (.file 0)).active = none ∧ (waiting .remount).active = none) ∧
    ((∃ (i : CatSlot) (st : Story) (k : Option DeskNo), media.catalogue[i] = .filed st k ∧ 61 ∈ blocksOf st.extents) ∧
      70 ∈ [70] ∧ cellState media.cells 71 = .free) := by
  refine ⟨?_, ?_, ?_, ?_, ?_, ⟨0, story, none, ?_⟩, ?_⟩ <;> decide +kernel

theorem witness_HeadMovements_begin :
    (((moving .unloaded none (opOf .readTrack 76 .nobody) false).work.drive 0).ops = [opOf .readTrack 76 .nobody] ∧
      ((moving .unloaded none (opOf .readTrack 76 .nobody) false).work.drive 0).mech = .unloaded) ∧
    (∀ t ∈ [none, some 0, some 76],
      ((moving .idle t (opOf .readTrack 76 .nobody) false).work.drive 0).mech = .idle ∧
        ((moving .idle t (opOf .readTrack 76 .nobody) false).work.drive 0).head = t) ∧
    ((moving .idle (some 5) (opOf .recalibrate 0 .nobody) false).work.drive 0).ops = [opOf .recalibrate 0 .nobody] ∧
    (moving .transferring none (opOf .readTrack 76 .nobody) false |>.work.drive 0).mech ∉ [.unloaded, .idle, .faulted] := by
  decide +kernel

/-- A state whose queue slot 0 holds an ACTIVE request of a job at a progress. -/
def origin (s : State) (job : Job) (p : Place) (g : Progress) : State := entry0 s (active job p g)

theorem witness_OperationReports :
    (let s := transfer { opOf .readTrack 2 (.request 0) with buffer := some 0 } { Attempt.none with bad := [3] };
      (s.work.drive 0).current = some { opOf .readTrack 2 (.request 0) with buffer := some 0, transferring := true }) ∧
    (let s := origin buffered (.read 0 none 10) (.filling 0) (.read 0 [⟨60, 0, 10⟩] []);
      s.work.entry 0 = some (active (.read 0 none 10) (.filling 0) (.read 0 [⟨60, 0, 10⟩] [])) ∧
        (s.work.validPieces 0 [⟨60, 0, 10⟩]).isSome = true ∧
        (origin reading (.read 0 none 10) (.filling 0) (.read 0 [⟨60, 0, 10⟩] [])).work.validPieces 0 [⟨60, 0, 10⟩] =
          none ∧ (s.work.desk 0).presence = .present) ∧
    (∀ c ∈ [Cell.absent, .valid (sector 9)],
      let s := writeStep (sector2 (staging ⟨10, [⟨62, 1⟩], false⟩) c) 10 (.filling 0) false none;
      s.work.handle 0 = some { editor with staging := some ⟨10, [⟨62, 1⟩], false⟩ } ∧
        (blocksOf [⟨62, 1⟩])[10 / 256]? = some 62 ∧ (s.work.sectorOf 0 2 62).map (fun x => (x.1, x.2.cell)) = some (0, c) ∧
        s.work.entryNaming 0 = some (0, active (.write 0 10 [7]) (.filling 0) (.write false none))) ∧
    ((active (.read 0 none 10) .evicting (.read 0 [] [])).active.map (·.place) = some .evicting ∧
      (vol.work.drive 0).vol = .mounted ∧ (added.work.drive 0).media.isSome = true) ∧
    (∀ n ∈ [0, 16], ∀ bad ∈ [[], [(14 : Fin 15)]],
      let p : FormatProgress := ⟨154, n, List.replicate n 100, none⟩;
      (origin vol (.format [0x56] 1 2) .formatting (.format p)).work.entry 0 =
          some (active (.format [0x56] 1 2) .formatting (.format p)) ∧
        (bad ≠ [] ∧ (2 < 2 ∨ 16 < p.bad.length + bad.length) ↔ bad = [14] ∧ n = 16)) ∧
    ((mountRead .track0 none [] .absent).work.drive 0).mount.isSome = true ∧
      (active (.file 0) .catalogue .plain).drive = 0 := by
  refine ⟨?_, ?_, ?_, ?_, ?_, ?_, ?_⟩ <;> decide +kernel

/-- Drive 0 waiting for the channel with one operation, and drive 2 with one of its own. -/
def asking (op : Op) (last : DriveId) : State :=
  let s := drive0 buffered fun dr => { dr with mech := .waitChannel, ops := [op] }
  { s with work := { s.work.updDrive 2 fun dr => { dr with mech := .waitChannel, ops := [op] } with lastGranted := last } }

theorem witness_ChannelIsGranted :
    (∀ k ∈ [OpKind.readTrack, .writeSectors, .catalogueWrite, .labelWrite, .formatTrack], ∀ again ∈ [true, false],
      let s := asking { opOf k 2 .nobody with transferring := again } 3;
      s.work.owner = none ∧ (s.work.drive 0).mech = .waitChannel ∧ s.work.restarting = false ∧
        (∀ c, (s.work.drive c).mech = .waitChannel → (0 + 3 - 3) % 4 ≤ (c.val + 3 - s.work.lastGranted.val) % 4) ∧
        (s.work.drive 0).ops = [{ opOf k 2 .nobody with transferring := again }] ∧ (s.work.drive 0).protectLine = false) ∧
    ((asking (opOf .readTrack 2 .nobody) 0).work.nextGranted = some 2 ∧
      (transfer (opOf .readTrack 2 .nobody) Attempt.none).work.owner ≠ none ∧
      ∀ c, (vol.work.drive c).mech ≠ .waitChannel) ∧
    (((drive0 (asking (opOf .writeSectors 2 .nobody) 3) fun dr => { dr with protectLine := true }).work.drive 0).protectLine =
        true ∧
      ((sector2 vol (.dirty (sector 9))).work.buffer 0).dirtySet ≠ []) ∧
    ((added.work.takeLabel 0 (opOf .labelWrite 0 .labelWrite)).isSome = true) := by
  refine ⟨?_, ?_, ?_, ?_⟩ <;> decide +kernel

/-- The volume with a damaged slot whose bytes are stored. -/
def stored : Media :=
  { media with catalogue := media.catalogue.set 2 (.damaged (some slugC) (some (List.replicate 64 0x61))) }

/-- Whether a DAMAGED slot has its 64 bytes stored. -/
def storedWhole : Slot → Bool
  | .damaged _ none => false
  | .damaged _ (some bytes) => bytes.length == 64
  | _ => true

/-- The FILE or KILL of slot i whose catalogue write waits for the channel. -/
def recording (s : State) (i : CatSlot) (job : Job) : State :=
  let op : Op := ⟨.catalogueWrite, 0, 0, none, .entry 0 i, .request 0, false⟩
  let s := entry0 s (active job .catalogue .plain)
  drive0 s fun dr => { dr with mech := .waitChannel, ops := [op], media := some stored }

theorem witness_GrantTakesARecord :
    (∀ x ∈ [(handle0 vol editor, (0 : CatSlot), Job.file 0), (handle0 vol author, 1, .file 0), (vol, 0, .kill slugA)],
      let s := recording x.1 x.2.1 x.2.2;
      s.work.owner = none ∧ (s.work.drive 0).mech = .waitChannel ∧ s.work.restarting = false ∧
        (s.work.drive 0).current.map (·.image) = some (.entry 0 x.2.1) ∧ (s.work.drive 0).media = some stored ∧
        s.work.entry 0 = some (active x.2.2 .catalogue .plain) ∧ (s.work.drive 0).protectLine = false) ∧
    (∀ (k : Fin 4) (slug : Option Chars), stored.catalogue[sectorSlot 0 k] ≠ .damaged slug none ∧
      ∀ bytes, stored.catalogue[sectorSlot 0 k] = .damaged slug (some bytes) → bytes.length = 64) ∧
    (stored.catalogue[editor.slot] = .filed story none ∧ stored.catalogue[author.slot] = .reserved slugB 4) ∧
    (media.additions = [] ∧ (added.work.drive 0).media.map (·.additions) = some [70] ∧
      (entry0 added (active (.file 0) .label .plain)).work.entry 0 = some (active (.file 0) .label .plain)) := by
  have h : ∀ k : Fin 4, storedWhole stored.catalogue[sectorSlot 0 k] = true := by decide +kernel
  refine ⟨by decide +kernel, fun k slug => ⟨fun e => ?_, fun bytes e => ?_⟩, by decide +kernel, by decide +kernel⟩
  · simpa [e, storedWhole] using h k
  · simpa [e, storedWhole] using h k

/-- A state whose retired version table is full. -/
def shelved (s : State) : State :=
  { s with work := { s.work with retired := Vector.replicate 16 (some ⟨0, 300, [⟨62, 2⟩], 1⟩) } }

theorem witness_VersionIsDisposedOf :
    ((reading.work.drive 0).media = some media ∧ reading.work.readersOf 0 0 = [0] ∧ vol.work.readersOf 0 0 = [] ∧
      { story with length := 0 }.length = 0 ∧ story.length ≠ 0) ∧
    ((∀ r, reading.work.record r = none) ∧ ∀ r, (shelved reading).work.record r ≠ none) ∧
    (let s := entry0 (shelved reading) (waiting (.read 0 none 10));
      s.work.entryNaming 0 = some (0, waiting (.read 0 none 10))) := by decide +kernel

theorem witness_CommitOverAVersion :
    (let e := active (.file 0) .catalogue .plain;
      (entry0 (handle0 vol editor) e).work.entry 0 = some e ∧ e.drive = 0 ∧
        (entry0 (handle0 vol editor) e).work.handle 0 = some editor ∧ editor.mode = .edit ∧
        media.catalogue[editor.slot] = .filed story none) ∧
    (media.lookup slugA = .filed 0 story none ∧ (vol.work.desk 0).presence = .present) ∧
    ∀ j st x, j ≠ (0 : CatSlot) → media.catalogue[j] = .filed st x → st.slug ≠ slugA :=
  ⟨by decide +kernel, by decide +kernel, fun j st x hj h => absurd ((media_slots j).1 st x h).1 hj⟩

theorem witness_WriteFaultOutsideAWritePass :
    ((transfer (opOf .writeSectors 2 .idleFlush) { Attempt.none with pulses := 2 }).work.drive 0).attempt.pulses < 3 ∧
      (vol.work.drive 0).mech ≠ .transferring ∧
      3 ≤ ((transfer (opOf .writeSectors 2 .idleFlush) { Attempt.none with pulses := 3 }).work.drive 0).attempt.pulses ∧
      2 ≤ ((transfer (opOf .formatTrack 2 .nobody) { Attempt.none with pulses := 2 }).work.drive 0).attempt.pulses ∧
      ((transfer (opOf .writeSectors 2 .idleFlush) Attempt.none).work.drive 0).attempt.verify = false ∧
      ((transfer (opOf .writeSectors 2 .idleFlush) { Attempt.none with verify := true }).work.drive 0).attempt.verify =
        true := by
  decide +kernel

/-- A state in which the pool has yet to take its wait list. -/
def due (s : State) : State := { s with work := { s.work with poolDue := true } }

theorem witness_PoolTakesItsList :
    (due mountWaits).work.waitList ≠ [] ∧ (due mountWaits).work.poolDue = true ∧
      .request 0 ∉ (due mountWaits).work.waitList ∧
      ((buffer0 mountWaits fun bu => { bu with heldBy := some (.request 0) }).work.buffer 0).heldBy = some (.request 0) ∧
      (failedSector []).work.poolDue = false := by decide +kernel

theorem witness_HeadUnload :
    (let s := drive0 vol fun dr => { dr with unloadPending := true, unloadTimer := none, idleRelocs := [0] };
      (s.work.drive 0).ops = [] ∧ (s.work.drive 0).unloadPending = true ∧ (s.work.drive 0).mech = .idle ∧
        ((drive0 s fun dr => { dr with mech := .settling }).work.drive 0).mech ≠ .idle) ∧
    (let s := drive0 vol fun dr => { dr with unloadTimer := none };
      (s.work.drive 0).unloadPending = false ∧ (s.work.drive 0).mech ∈ [.idle, .stepping] ∧
        (s.work.drive 0).unloadTimer = none ∧ (vol.work.drive 0).unloadTimer ≠ none ∧
        ((drive0 s fun dr => { dr with mech := .unloaded }).work.drive 0).mech ∉ [Mech.idle, .stepping]) ∧
    (let s := drive0 (failedSector []) fun dr => { dr with unloadPending := true, idleRelocs := [0] };
      (s.work.buffer 0).key = some ⟨0, 2, 0⟩ ∧ 0 ∈ (s.work.drive 0).idleRelocs ∧ (s.work.drive 0).unloadPending = true) ∧
    ((vol.work.drive 0).appendWait = [] ∧ 16 ≤ (List.replicate 16 (opOf .readTrack 2 .nobody)).length) := by
  decide +kernel

theorem witness_CharactersAssembleAFrame_formats :
    (lineChar .f8N ⟨0x21, false, true, false⟩).parityError = false ∧ (lineChar .f7E (char 0xA1)).value = 0x21 ∧
      (lineChar .f7E ⟨0x21, false, true, true⟩).parityError = true ∧
      (lineChar .f8N ⟨0x21, false, false, true⟩).framingError = true := by decide

theorem witness_HeldFrameIsTaken :
    (let s := lineAt base 0 fun x => { x with rx := .held, rxFrame := some ⟨env, .status 1⟩, rxDropped := true };
      (s.work.line 0).enabled = true ∧ (s.work.line 0).rx = .held ∧ (s.work.line 0).tx.length ≤ 10 ∧
        ({ s.work with restarting := true } : Work).restarting = true ∧ s.work.restarting = false ∧
        Request.status 1 ≠ .cancel ∧
        ((desk0 s fun k => { k with outstanding := some ⟨5, some .status, none⟩ }).work.desk 0).outstanding.isSome = true ∧
        (s.work.desk 0).presence = .present) ∧
    ((base.work.line 1).enabled = false ∧ (base.work.line 0).rx ≠ .held) ∧
    ((p2p .f7E fun x => { x with rx := .assembling, rxChars := statusText, judgement := .packed }).work.line 1).judgement =
      .packed ∧
    (let s := answering fun x => { x with rxChars := statusPacked, rxPacked := true, judgement := .text };
      (s.work.line 0).judgement = .text ∧ (s.work.line 0).rxPacked = true ∧
        byteSum (((s.work.line 0).rxChars ++ [0xDC]).drop 1) % 256 = 0) := by decide +kernel

theorem witness_FrameSent_waiting :
    (let s := lineAt (sending 12) 0 fun x => { x with txWait := List.replicate 2 ⟨0, .notice false .restarted⟩ };
      (s.work.line 0).enabled = true ∧ (s.work.line 0).tx.length = 12 ∧
        4 ≤ ((s.work.line 0).tx.drop 1 ++ (s.work.line 0).txWait.take 1).length) ∧
    (((sending 0).work.line 0).tx.length ≤ 3 ∧ ((sending 0).work.desk 0).notices = [.restarted] ∧
      1 ≤ ((sending 0).work.line 0).dropLastAdmitted ∧ ((sending 0).work.line 0).dropLastAdmitted ≤ 8) := by
  decide +kernel

theorem witness_PollCycle_answers :
    (∀ rx ∈ [Rx.hunting, .assembling, .held, .quiet], ((answering fun x => x).work.line 0).format = .f9M ∧
      ((lineAt (answering id) 0 fun x => { x with rx }).work.line 0).rx = rx ∧
      ((lineAt (answering id) 0 fun x => { x with rx }).work.line 0).poll.state = .answer) ∧
    ((char 0x15).mark = false ∧ (char 0x15).framingError = false ∧ (address 7).mark = true) ∧
    (∀ n ∈ [119, 120], ((answering fun x => { x with rxChars := List.replicate n 0x41 }).work.line 0).rxChars.length = n) ∧
    (((answering fun x => { x with rxChars := [0x02], rxPacked := true }).work.line 0).rxChars = [0x02] ∧
      (char 3).value.toNat = 3 ∧ (char 201).value.toNat = 201) ∧
    (let x := (answering fun x => { x with rxChars := statusPacked, rxPacked := true }).work.line 0;
      2 ≤ x.rxChars.length ∧ x.rxChars.length + 1 = byteAt x.rxChars 1 + 2 ∧
        byteSum ((x.rxChars ++ [0]).drop 1) % 256 ≠ 0 ∧ [(2 : Byte), 4].length + 1 ≠ byteAt [2, 4] 1 + 2) := by
  refine ⟨?_, ?_, ?_, ?_, ?_⟩ <;> decide +kernel

/-! ### Witnesses: values that are refused or held, and a KILL at its dispatch -/

theorem witness_SetRefusals :
    (∀ x ∈ [(2, 0, 0), (3, 0, 1), (4, 0, 2), (5, 0, 200), (6, generatorCode (base.work.line 0).generator, 192), (13, 1, 0)],
      ∃ old, itemValue base.cfg base.work x.1 x.2.1 = some old ∧ itemValueOk x.1 x.2.2 = true ∧ x.2.2 ≠ old) ∧
    ((base.work.line 0).enabled = true ∧ 0 ≠ 3 ∧ 1 = (lineOf 0).val * 16 + dropOf 0 ∧ base.cfg.cls 0 = .supervisor ∧
      ∀ j, base.cfg.cls j = .supervisor → j = 0) ∧
    (4 ≤ 4 ∧ 8 < 9 ∧ 3 < 4 ∧ 1 < 2 ∧ 3 < (⟨1, 0, 63, 1, 15, 4⟩ : RuleFields).grant) ∧
    (1 = (if (base.work.line 0).enabled then 1 else 0) ∧ 0 = (if (base.work.line 3).enabled then 1 else 0) ∧
      1 = (if (base.work.drive 0).enabled then 1 else 0)) := by
  refine ⟨fun x h => ?_, by decide, by decide, by decide⟩
  have : (itemValue base.cfg base.work x.1 x.2.1).any (fun old => itemValueOk x.1 x.2.2 && x.2.2 != old) = true := by
    revert x; decide
  obtain ⟨old, h1, h2⟩ := (Option.any_eq_true _ _).mp this
  exact ⟨old, h1, by simpa using h2⟩

/-- Drive 0 MOUNTING, with no volume on it yet. -/
def mounting : State := drive0 base fun dr => { dr with vol := .mounting, media := none }

theorem witness_KillWhileMounting :
    (∀ s ∈ [mounting, crowded mounting], (s.work.drive 0).vol = .mounting ∧ (s.work.drive 0).media = none) ∧
    Served mounting 0 .kill ∧ Served (crowded mounting) 0 .kill ∧ slugOk slugA = true ∧
    (Served reading 0 .discard ∧ reader.mode = .read ∧ reader.state = .live) :=
  ⟨by decide +kernel, served _ _ (by decide +kernel), served _ _ (by decide +kernel), by decide,
    served _ _ (by decide +kernel), by decide⟩

/-- The KILL of a slug in slot 0, which waited through a mount or did not. -/
def killing (slug : Chars) (throughMount : Bool) : Entry := { waiting (.kill slug) with throughMount }

theorem witness_KillAtItsDispatch :
    (∀ t ∈ [true, false], ∀ x ∈ [(vol, slugB), (vol, slugC), (vol, slugD), (handle0 vol author, slugB), (vol, slugA),
        (handle0 vol editor, slugA)],
      let s := entry0 x.1 (killing x.2 t);
      picks s (killing x.2 t) ∧ (s.work.drive 0).media = some media ∧ (s.work.drive 0).vol = .mounted) ∧
    (media.lookup slugB = .reserved 1 4 ∧ media.lookup slugC = .damaged 2 ∧ media.lookup slugD = .none ∧
      media.lookup slugA = .filed 0 story none ∧ (handle0 vol author).work.holderOf 0 1 = some 0 ∧
      (handle0 vol editor).work.holderOf 0 0 = some 0) ∧
    (∀ s ∈ [readOnly, atMinute vol 5 { closing with state := .closed }, drive0 vol fun dr => { dr with vol := .writeProtected },
        drive0 vol fun dr => { dr with vol := .writeFaulted }], picks (entry0 s (killing slugA true)) (killing slugA true)) ∧
    (grantFor readOnly.cfg (readOnly.cfg.cls 0) 3 ≠ .readWrite ∧ grantFor vol.cfg (vol.cfg.cls 0) 3 = .readWrite ∧
      basketClosed (atMinute vol 5 { closing with state := .closed }).cfg 3 = true ∧ vol.cfg.cls 0 ≠ .slot) := by
  refine ⟨?_, ?_, ?_, ?_⟩ <;> decide +kernel

/-! ### Witnesses: the barrier, a noted CANCEL, and the parties that want a buffer -/

/-- The FILE of story A's check-out at its barrier. -/
def atBarrier (s : State) : State := entry0 s (active (.file 0) .barrier .plain)

/-- A state whose buffer 0 is in a state. -/
def bufferIs (s : State) (b : BufState) : State := buffer0 s fun bu => { bu with state := b }

theorem witness_FileBarrier :
    (∀ s ∈ [atBarrier dirtied, atBarrier (bufferIs dirtied .flushing), atBarrier (handle0 vol editor),
        drive0 (atBarrier dirtied) fun dr => { dr with ops := [opOf .writeSectors 2 (.request 0)] }],
      s.work.activeOf 0 = some (0, active (.file 0) .barrier .plain, ⟨.ordinary, false, .barrier, .plain⟩) ∧
        ∃ hd st, s.work.handle 0 = some hd ∧ hd.drive = 0 ∧ hd.staging = some st) ∧
    ((atBarrier dirtied).work.ownOps 0 = 0 ∧ (dirtied.work.buffer 0).state = .ready ∧ 62 ∈ blocksOf [⟨62, 1⟩] ∧
      ((dirtied.work.sectorOf 0 (dirtied.work.sides 0) 62).map fun x => (x.1, x.2.cell.isDirty)) = some (0, true) ∧
      ((bufferIs dirtied .flushing).work.buffer 0).state ≠ .ready ∧ (atBarrier (handle0 vol editor)).work.ownOps 0 = 0 ∧
      (drive0 (atBarrier dirtied) fun dr => { dr with ops := [opOf .writeSectors 2 (.request 0)] }).work.ownOps 0 ≠ 0) := by
  refine ⟨fun s h => ?_, by decide +kernel⟩
  have a : ∀ s ∈ [atBarrier dirtied, atBarrier (bufferIs dirtied .flushing), atBarrier (handle0 vol editor),
        drive0 (atBarrier dirtied) fun dr => { dr with ops := [opOf .writeSectors 2 (.request 0)] }],
      s.work.activeOf 0 = some (0, active (.file 0) .barrier .plain, ⟨.ordinary, false, .barrier, .plain⟩) ∧
        s.work.handle 0 = some ((s.work.handle 0).getD editor) ∧ ((s.work.handle 0).getD editor).drive = 0 ∧
        ((s.work.handle 0).getD editor).staging.isSome = true := by decide +kernel
  obtain ⟨h1, h2, h3, h4⟩ := a s h
  obtain ⟨st, h5⟩ := Option.isSome_iff_exists.mp h4
  exact ⟨h1, _, st, h2, h3, h5⟩

theorem witness_PartyWaitsForItsBuffer :
    (∀ p ∈ [Place.evicted, .draining 1, .evicting, .waiting, .filling 0, .draining 0],
      let s := entry0 (handle0 (failedSector []) reader) (readStep p [⟨60, 0, 10⟩]);
      steps s (readStep p [⟨60, 0, 10⟩]) reader ∧ s.work.validPieces 0 [⟨60, 0, 10⟩] = none ∧
        (s.work.buffer 0).pending ≠ [] ∧ (s.work.buffer 1).pending = []) ∧
    (∀ p ∈ [Place.evicted, .draining 1, .evicting, .waiting, .filling 0, .draining 0],
      let hd := { editor with staging := some ⟨10, [⟨62, 1⟩], false⟩ };
      steps (writeStep (failedSector []) 10 p false none) (active (.write 0 10 [7]) p (.write false none)) hd ∧
        (blocksOf [⟨62, 1⟩])[10 / 256]? = some 62) ∧
    (∀ p ∈ [MountPlace.wanting, .evicted, .draining 1, .evicting, .waiting, .draining 0],
      let s := drive0 (failedSector []) fun dr => { dr with mount := some ⟨p, none, none, []⟩ };
      (s.work.drive 0).mount = some ⟨p, none, none, []⟩ ∧ (s.work.buffer 0).pending ≠ [] ∧ (s.work.buffer 1).pending = []) ∧
    (∀ p ∈ [RelocPlace.wanting, .evicted, .draining 1, .evicting, .waiting, .draining 0],
      let s := buffer0 (failedSector []) fun bu => { bu with reloc := some ⟨0, 100, p⟩ };
      (s.work.buffer 0).key = some ⟨0, 2, 0⟩ ∧ (s.work.buffer 0).reloc = some ⟨0, 100, p⟩ ∧ (s.work.buffer 0).pending ≠ []) := by
  refine ⟨?_, ?_, ?_, ?_⟩ <;> decide +kernel

/-- An ACTIVE request with a noted CANCEL. -/
def noted (job : Job) (p : Place) (g : Progress) : Entry :=
  { active job p g with active := some ⟨.ordinary, true, p, g⟩ }

/-- What the end of a noted CANCEL asks of a state. -/
abbrev ends (s : State) (e : Entry) : Prop :=
  s.work.activeOf 0 = e.active.map (fun a => (0, e, a)) ∧ s.work.entry 0 = some e ∧ e.active.any (·.cancelNoted) = true ∧
    (s.work.desk 0).presence = .present

theorem witness_NotedCancelEnds :
    (∀ e ∈ [noted (.read 0 none 10) (.filling 0) (.read 0 [⟨60, 0, 10⟩] []), noted (.file 0) .barrier .plain,
        noted (.write 0 300 [1]) .run (.write true none), noted (.write 0 300 [1]) .run (.write true (some 63)),
        noted .remount .mounting .plain, noted (.kill slugA) .catalogue .plain,
        noted (.format [0x56] 1 2) .formatting (formats 5)],
      ends (entry0 staged e) e) ∧
    (staged.work.handle 0 = some { editor with staging := some ⟨300, [⟨62, 2⟩], false⟩ } ∧
      (staged.work.drive 0).media = some stagedMedia ∧ cellsFrom 0 stagedMedia.cells = true ∧
      ((staged.work.buffer 0).state ≠ .free ∧ (staged.work.buffer 0).key = some (keyOf 0 2 62) ∧
        blockSector 62 ∈ (staged.work.buffer 0).pending) ∧
      ∀ b, ((handle0 vol editor).work.buffer b).state = .free) ∧
    (let s := drive0 staged fun dr => { dr with ops := [{ opOf .writeSectors 2 (.request 0) with transferring := true }] };
      ∃ op ∈ (s.work.drive 0).queued, op.origin = .request 0 ∧ op.transferring = true) := by
  refine ⟨?_, ?_, ?_⟩ <;> decide +kernel

/-! ### Witnesses: a fall or an index loss while a volume is MOUNTING or FORMATTING, a FAULTED drive, and movements that run on -/

/-- A state whose drive 0 is MOUNTING or FORMATTING, with its ready line fallen and its index watch running. -/
def falling (s : State) (v : VolState) : State := drive0 s fun dr =>
  { dr with vol := v, takenLevel := true, readyLine := false, debounce := some 500, indexWatch := some 1000 }

theorem witness_FallWhileMountingOrFormatting :
    (∀ s ∈ [mountRead .track0 none [] .absent, entry0 (mountRead .track0 none [] .absent) (active .remount .mounting .plain)],
      let t := falling s .mounting;
      (t.work.drive 0).enabled = true ∧ (t.work.drive 0).debounce.isSome = true ∧ (t.work.drive 0).readyLine = false ∧
        (t.work.drive 0).takenLevel = true ∧ (t.work.drive 0).vol = .mounting ∧ (t.work.drive 0).indexWatch.isSome = true ∧
        (t.work.activeOf 0).all (fun x => x.2.1.job == .remount) = true) ∧
    (let e := active (.format [0x56] 1 2) .formatting (formats 5)
      let t := falling (entry0 vol e) .formatting;
      (t.work.drive 0).vol = .formatting ∧ t.work.activeOf 0 = some (0, e, ⟨.ordinary, false, .formatting, formats 5⟩) ∧
        t.work.entry 0 = some e ∧ e.drive = 0 ∧ (t.work.desk 0).presence = .present) ∧
    (∀ v ∈ [VolState.absent, .foreign, .unreadable], ((falling base v).work.drive 0).vol = v ∧
      ((falling base v).work.drive 0).media = none) := by
  refine ⟨?_, ?_, ?_⟩ <;> decide +kernel

/-- Drive 0 in a mechanical state with the operation of slot 0's request. -/
def mechIs (s : State) (m : Mech) (v : VolState) : State := drive0 s fun dr =>
  { dr with mech := m, vol := v, ops := [opOf .readTrack 76 (.request 0)], appendWait := [] }

theorem witness_FaultedAndRunningOn :
    (∀ v ∈ [VolState.absent, .foreign, .unreadable],
      let s := mechIs (entry0 base (waiting .remount)) .faulted v;
      (s.work.drive 0).mech = .faulted ∧ (s.work.drive 0).ops = [opOf .readTrack 76 (.request 0)] ∧ (s.work.drive 0).vol = v ∧
        (s.work.drive 0).queued = [opOf .readTrack 76 (.request 0)] ∧ s.work.entry 0 = some (waiting .remount) ∧
        (s.work.desk 0).presence = .present) ∧
    (let e := active (.format [0x56] 1 2) .formatting (formats 5)
      let s := mechIs (entry0 base e) .faulted .formatting;
      s.work.activeOf 0 = some (0, e, ⟨.ordinary, false, .formatting, formats 5⟩) ∧ (s.work.drive 0).vol = .formatting) ∧
    (∀ m ∈ [Mech.loading, .stepping, .settling, .recalibrating],
      let s := drive0 vol fun dr => { dr with mech := m, runOn := true, head := some 76 };
      (s.work.drive 0).mech = m ∧ (s.work.drive 0).runOn = true ∧ (s.work.drive 0).head = some 76) ∧
    moves (moving .settling (some 0) (opOf .recalibrate 0 .nobody) false) (opOf .recalibrate 0 .nobody) ∧
    moves (moving .settling (some 0) (opOf .readTrack 76 .nobody) false) (opOf .readTrack 76 .nobody) := by
  refine ⟨?_, ?_, ?_, ?_, ?_⟩ <;> decide +kernel

/-! ### Witnesses: failed attempts, failed sectors and the five steps of obtaining a buffer -/

theorem witness_FlushLeavesSectors :
    (let s := entry0 (handle0 (failedSector []) reader) (readStep .evicting [⟨60, 0, 10⟩]);
      s.work.entry 0 = some (readStep .evicting [⟨60, 0, 10⟩]) ∧ (s.work.buffer 0).pending ≠ [] ∧
        (s.work.buffer 1).pending = []) ∧
    (let s := failedSector [(60, .filed), (61, .filed), (62, .staged)]
      let a : Attempt := { Attempt.none with taken := [(2, sector 9)], bad := [2] };
      ((s.work.buffer 0).sectors[(2 : Fin 15)]) = ⟨.dirty (sector 9), false⟩ ∧ (2, sector 9) ∈ a.taken ∧
        a.done.lookup 2 = none ∧ (s.work.buffer 0).key = some ⟨0, 2, 0⟩ ∧
        ((s.work.drive 0).media.map fun m => cellState m.cells (blockAt m.label.sides 2 0 2)) = some .staged) := by
  refine ⟨?_, ?_⟩ <;> decide +kernel

theorem witness_AttemptFails :
    (∀ x ∈ [(false, 0), (false, 3), (true, 3)],
      ∀ k ∈ [OpKind.readTrack, .writeSectors, .catalogueWrite, .labelWrite, .formatTrack],
      let a : Attempt := { Attempt.none with
        made := 1, bad := [14], final := x.1, retries := x.2, taken := [(14, sector 9)], image := sector 1,
        oldImage := some (sector 2) }
      let s := transfer (opOf k 2 .nobody) a;
      (s.work.drive 0).mech = .transferring ∧ (s.work.drive 0).current.any (·.kind == k) = true ∧ s.work.owner = some 0 ∧
        (s.work.drive 0).attempt = a ∧ a.bad ≠ []) ∧
    ([SectorRead.crcError][0]? = some .crcError ∧ sector 2 ≠ sector 1 ∧ sector 3 ≠ sector 1 ∧ some (sector 2) ≠ some (sector 3) ∧
      (List.replicate 15 SectorRead.crcError)[14]? ≠ some (.good (List.replicate 256 0)) ∧
      (List.replicate 15 (SectorWrite.written (.good (sector 8))))[14]? = some (.written (.good (sector 8))) ∧
      sector 8 ≠ sector 9) := by
  refine ⟨?_, ?_⟩ <;> decide +kernel

/-- A state whose every buffer is READY with a track-side of its own on drive 1, all in one state and in one party's hands. -/
def full (s : State) (c : Cell) (held : Option Holder) : State :=
  { s with work := { s.work with buffers := Vector.ofFn fun b =>
      { Buffer.powerOn with state := .ready, key := some ⟨1, b.val, 0⟩, heldBy := held,
                            sectors := Vector.replicate 15 ⟨c, false⟩ } } }

/-- Whether a track-side is in no buffer, and the wait list is nobody's. -/
abbrev wants (s : State) (key : TrackKey) : Prop :=
  (∀ b, ¬ ((s.work.buffer b).state ≠ .free ∧ (s.work.buffer b).key = some key)) ∧ s.work.lru = 0 :: s.work.lru.drop 1 ∧
    (s.work.poolDue = false ∨ s.work.waitList = [])

theorem witness_FiveStepsOfObtaining :
    ((buffered.work.buffer 0).state ≠ .free ∧ (buffered.work.buffer 0).key = some ⟨0, 2, 0⟩ ∧
      ∀ c, (buffered.work.buffer c).state ≠ .free ∧ (buffered.work.buffer c).key = some ⟨0, 2, 0⟩ → c = 0) ∧
    (∀ s ∈ [vol, full vol (.valid (sector 9)) none, full vol (.dirty (sector 9)) none,
        full vol (.valid (sector 9)) (some (.mount 3))], wants s ⟨0, 2, 0⟩) ∧
    ((vol.work.buffer 0).state = .free ∧
      ∀ c, ((full vol (.valid (sector 9)) none).work.buffer c).state = .ready ∧
        ((full vol (.valid (sector 9)) none).work.buffer c).heldBy = none ∧
        ((full vol (.valid (sector 9)) none).work.buffer c).pending = [] ∧
        ((full vol (.valid (sector 9)) none).work.buffer c).dirtySet = [] ∧
        ((full vol (.dirty (sector 9)) none).work.buffer c).dirtySet ≠ [] ∧
        ((full vol (.valid (sector 9)) (some (.mount 3))).work.buffer c).heldBy ≠ none) ∧
    (let s := entry0 vol (readStep .run [⟨60, 0, 10⟩]);
      (s.work.obtain (.request 0) ⟨0, 2, 0⟩).2 = .got 0 ∧ s.work.entry 0 = some (readStep .run [⟨60, 0, 10⟩])) ∧
    ((mountWaits.work.obtain (.mount 0) ⟨0, 0, 0⟩).2 = .got 0 ∧ (mountWaits.work.drive 0).mount.isSome = true) ∧
    ((buffer0 (failedSector []) fun bu => { bu with reloc := some ⟨0, 100, .wanting⟩ }).work.buffer 0).reloc.isSome = true := by
  refine ⟨?_, ?_, ?_, ?_, ?_, ?_⟩ <;> decide +kernel

/-- A READ of desk 0.2 on drive 1 whose eviction flush of buffer 0 stands on drive 0, which has no handle and no request. -/
def foreignFlush : State :=
  let s := buffer0 vol fun _ => { Buffer.powerOn with
    state := .flushing, key := some ⟨0, 2, 0⟩, sectors := Vector.replicate 15 ⟨.dirty (sector 9), false⟩ }
  let s := drive0 s fun dr => { dr with ops := [{ opOf .writeSectors 2 (.request 0) with buffer := some 0 }] }
  entry0 (handle0 s { reader with drive := 1, desk := 1 })
    { active (.read 0 none 10) .evicting (.read 0 [⟨90, 0, 10⟩] []) with desk := 1, drive := 1 }

theorem witness_DriveDisableRemovesAFlush :
    Served foreignFlush 0 .set ∧ (foreignFlush.work.drive 0).enabled = true ∧
      (∀ h, ¬ (foreignFlush.work.handle h).any (·.drive == 0)) ∧ (∀ q, ¬ (foreignFlush.work.entry q).any (·.drive == 0)) ∧
      ((foreignFlush.work.entry 0).bind (·.active)).map (·.place) = some .evicting ∧
      (∃ op ∈ (foreignFlush.work.drive 0).queued, op.origin = .request 0) ∧ foreignFlush.work.entry 1 = none :=
  ⟨served _ _ (by decide +kernel), by decide +kernel⟩

/-- A relocation that cannot be made, its list already in eight extents, under the ACTIVE FILE of its check-out. -/
def lostUnderFile (bad : List Nat) : State :=
  let xs : List Extent := ⟨61, 3⟩ :: (List.range 7).map fun i => ⟨100 + 2 * i, 1⟩
  let s := drive0 (failedSector []) fun dr =>
    { dr with media := some { media with label := { media.label with badBlocks := bad }, cursor := 200 } }
  entry0 (handle0 s { editor with staging := some ⟨2000, xs, false⟩ }) (active (.file 0) .barrier .plain)

theorem witness_RelocationUnderAFile :
    ∀ bad ∈ [[], List.range 16], let s := lostUnderFile bad; let e := active (.file 0) .barrier .plain;
      (s.work.buffer 0).key = some ⟨0, 2, 0⟩ ∧ (s.work.buffer 0).pending = [2] ∧ (s.work.buffer 0).reloc = none ∧
        blockAt 2 2 0 2 = 62 ∧ s.work.entryNaming 0 = some (0, e) ∧ s.work.entry 0 = some e ∧ e.drive = 0 ∧
        (s.work.desk 0).presence = .present ∧ (∀ i, i ≠ 0 → s.work.handle i = none) ∧
        ((s.work.drive 0).media.bind (·.allocate)).map (·.1) = some 200 ∧ (s.work.drive 0).vol = .mounted ∧
        ((s.work.handle 0).bind (·.staging)).any (fun st => (blocksOf st.extents).contains 62 &&
          decide (8 < (replaceBlock st.extents 62 200).length)) = true ∧
        ((s.work.buffer 0).state ≠ .free ∧ (s.work.buffer 0).key = some (keyOf 0 2 62) ∧ blockSector 62 = 2) ∧
        s.work.KeysDistinct := by
  unfold Work.KeysDistinct
  decide +kernel

/-! ### Small steps -/

/-- The result code of the last frame of a line. -/
def lastCode (s : State) (l : LineId) : Option ResultCode :=
  (s.work.line l).tx.getLast?.bind fun f => match f.content with
    | .reply r => some r.code
    | .notice _ _ => none

theorem test_status_is_answered : lastCode (after (.status env 0) vol) 0 = some .ok := by decide +kernel
theorem test_disabled_drive_is_refused :
    lastCode (after (.status env 0) (drive0 vol fun dr => { dr with enabled := false })) 0 = some .noDrive := by
  decide +kernel
theorem test_list_shows_the_catalogue :
    ((after (.list env 0 .all 0) vol).work.line 0).tx = [⟨0, .reply ⟨some .list, 5, .ok, .list true
      [.filed 0 story none, .reserved 1 slugB 4 none, .damaged 2 (some slugC)]⟩⟩] := by decide +kernel
theorem test_list_goes_on_after_four :
    ((after (.list env 0 .all 0) (drive0 vol fun dr => { dr with media := some spoiled })).work.desk 0).outstanding =
      some ⟨5, some .list, some ⟨0, .all, 4, .none⟩⟩ := by decide +kernel
theorem test_create_reserves_slot_three :
    ((after (.create env 0 slugD 9) vol).work.handle 0).map (·.slot) = some 3 := by decide +kernel
theorem test_create_of_a_filed_slug : lastCode (after (.create env 0 slugA 9) vol) 0 = some .exists_ := by decide +kernel
theorem test_open_of_a_reserved_slug : lastCode (after (.openRead env 0 slugB) vol) 0 = some .noStory := by decide +kernel
theorem test_open_edit_takes_the_version :
    ((after (.openEdit env 0 slugA) vol).work.handle 0).bind (·.base) = some 7 := by decide +kernel
theorem test_kill_of_a_checked_out_story :
    lastCode (after (.kill env 0 slugA) (handle0 vol { editor with desk := 1 })) 0 = some .locked := by decide +kernel
theorem test_write_is_queued :
    ((after (.write env 1 0 [1, 2]) (handle0 vol editor)).work.entry 0).map (·.job) = some (.write 0 0 [1, 2]) := by
  decide +kernel
theorem test_write_at_the_wrong_place :
    lastCode (after (.write env 1 1 [1, 2]) (handle0 vol editor)) 0 = some .offset := by decide +kernel
theorem test_read_from_the_buffers :
    ((after (.read env 1 2 (some 255)) buffered).work.line 0).tx =
      [⟨0, .reply ⟨some .read, 5, .ok, .read 255 [0, 1]⟩⟩] := by decide +kernel
theorem test_discard_frees_the_slot :
    ((after (.discard env 1) (handle0 vol author)).work.drive 0).media.map (fun m => m.catalogue[(1 : CatSlot)]) =
      some .empty := by decide +kernel
theorem test_break_tells_the_holder :
    ((after (.breakCheckOut env 0 slugA) (handle0 vol { editor with desk := 1 })).work.desk 1).notices =
      [.broken 0 0] := by decide +kernel
theorem test_set_of_the_only_supervisor : lastCode (after (.setClass env 0 1 0) base) 0 = some .inUse := by decide +kernel
theorem test_query_of_an_unknown_item : lastCode (after (.query env 15 0) base) 0 = some .badRequest := by decide +kernel
theorem test_clock_starts_the_interval : (after (.clock env 1439) base).cfg.minuteInterval = some 60 := by decide +kernel
theorem test_midnight : (after .minuteExpiry (atMinute base 1439 closing)).cfg.clock = .running 0 := by decide +kernel
theorem test_close_freezes :
    ((after .minuteExpiry (handle0 (atMinute vol 0 closing) editor)).work.handle 0).map (·.state) = some .frozen := by
  decide +kernel

/-- A WRITE into a fresh check-out is dispatched, gets a FREE buffer and is done without a drive. -/
theorem test_dispatch_writes_a_new_block :
    let s := after (.dispatch 0) (entry0 (handle0 vol editor) (waiting (.write 0 0 [7, 8])))
    (s.work.handle 0).bind (·.staging) = some ⟨2, [⟨62, 1⟩], false⟩ ∧ s.work.entry 0 = none ∧
      ((s.work.buffer 0).sectors[(2 : Fin 15)]).cell = .dirty (pad 256 [7, 8]) ∧ lastCode s 0 = some .ok := by
  decide +kernel

/-- A FILE with a DIRTY sector waits at its barrier, and its flush is granted the channel after the seek. -/
theorem test_file_flushes_first :
    let s := after (.dispatch 0) (entry0 (handle0 vol editor) (waiting (.write 0 0 [7, 8])))
    let t := after (.dispatch 0) (entry0 s (waiting (.file 0)))
    ((t.work.entry 0).bind (·.active)).map (·.place) = some .barrier ∧
      (t.work.drive 0).ops.map (·.kind) = [.writeSectors] ∧ (t.work.drive 0).mech = .stepping := by
  decide +kernel

theorem test_read_fills_a_buffer :
    let s := after (.dispatch 0) (entry0 reading (waiting (.read 0 none 10)))
    (s.work.drive 0).ops.map (fun op => (op.kind, op.track, op.side)) = [(.readTrack, 2, 0)] ∧
      (s.work.buffer 0).state = .filling ∧ (s.work.drive 0).mech = .stepping := by decide +kernel

theorem test_taken_rise_begins_a_mount :
    let s := after (.debounceExpiry 0) (drive0 base fun dr => { dr with readyLine := true, debounce := some 500 })
    (s.work.drive 0).vol = .mounting ∧ (s.work.drive 0).mech = .loading ∧
      (s.work.drive 0).ops.map (·.kind) = [.recalibrate, .readTrack] := by decide +kernel

theorem test_taken_fall_loses_the_handles :
    let s := after (.debounceExpiry 0)
      (drive0 (handle0 vol editor) fun dr => { dr with readyLine := false, debounce := some 500 })
    (s.work.drive 0).vol = .absent ∧ (s.work.handle 0).map (·.state) = some (.defunct .lost) ∧
      (s.work.desk 0).notices = [.lost 0 [0]] := by decide +kernel

theorem test_index_loss_faults : ((after (.indexWatchExpiry 0) vol).work.drive 0).mech = .faulted := by decide +kernel

theorem test_eighty_steps_fault :
    ((after (.recalibrateStep 0 false)
      (drive0 (moving .recalibrating none (opOf .recalibrate 0 .nobody) false) fun dr => { dr with recalSteps := 80 })).work.drive
        0).mech = .faulted := by decide +kernel

theorem test_settle_asks_for_the_channel :
    (after (.settleEnd 0) (moving .settling (some 2) (opOf .readTrack 2 .nobody) false)).work.owner = some 0 := by
  decide +kernel

theorem test_write_fault_loses_the_check_outs :
    let s := after (.writeFaultLine ⟨0, false⟩) (handle0 (transfer (opOf .writeSectors 2 .idleFlush) Attempt.none) editor)
    (s.work.drive 0).vol = .writeFaulted ∧ (s.work.handle 0).map (·.state) = some (.defunct .lost) := by decide +kernel

theorem test_relocation_moves_the_content :
    let s := after (.relocation 0) (drive0 (failedSector []) fun dr =>
      { dr with media := some { media with cells := [(60, .filed), (61, .filed), (62, .staged)], cursor := 100 } })
    (s.work.handle 0).bind (·.staging) = some ⟨10, [⟨100, 1⟩], false⟩ ∧
      ((s.work.buffer 1).sectors[blockSector 100]).cell = .dirty (sector 9) ∧
      (s.work.drive 0).media.map (·.additions) = some [62] := by decide +kernel

theorem test_commit_files_the_story :
    let e := active (.file 0) .catalogue .plain
    let a : Attempt := { Attempt.none with
      made := 1, image := sector 1, entry := some { story with slug := slugB, extents := [⟨62, 2⟩] } }
    let s := entry0 (handle0 (transfer ⟨.catalogueWrite, 0, 0, none, .entry 0 1, .request 0, false⟩ a) author) e
    let t := after (.catalogueWriteAttemptEnd 0 false (.written (.good (sector 1)))) s
    t.work.handle 0 = none ∧ t.work.entry 0 = none ∧
      (t.work.drive 0).media.map (fun m => (m.catalogue[(1 : CatSlot)], cellState m.cells 62)) =
        some (.filed { story with slug := slugB, extents := [⟨62, 2⟩] } none, .filed) := by decide +kernel

theorem test_head_unload_unloads :
    ((after (.headUnloadExpiry 0) vol).work.drive 0).mech = .unloaded := by decide +kernel

theorem test_restart_clears_and_mounts_again :
    let s := after .restartClearing (after (.restart env) (handle0 vol editor))
    s.work.handle 0 = none ∧ (s.work.drive 0).vol = .mounting ∧ (s.work.desk 0).notices = [.restarted] ∧
      s.work.lastRestart = .restart := by decide +kernel

/-- A text STATUS frame and its carriage return on a 7E line are a STATUS request of desk 1.1. -/
theorem test_text_frame_on_a_line :
    let s := p2p .f7E fun x => { x with rx := .assembling, rxChars := statusText }
    let s := { s with work := s.work.updDesk 8 fun k => { k with presence := .present } }
    lastCode (after (.characterReceived 1 (char 0x0D)) s) 1 = some .ok := by decide +kernel

theorem test_nil_character_makes_present :
    ((after (.upstreamCharacter 0 (char 0x15)) (polling .answer 0)).work.desk 0).presence = .present := by decide +kernel

theorem test_third_miss_makes_absent :
    ((after (.answerWindowExpiry 0) (desk0 (polling .window 0) fun k => { k with missCount := 2 })).work.desk 0).presence =
      .absent := by decide +kernel

theorem test_reply_goes_out_in_text :
    ((after (.remount env 9) base).work.line 0).sending.map (·.value) =
      0x01 :: [0x30, 0x35, 0x20] ++ word "REMOUNT BAD_REQUEST" ++ [0x0D] := by decide +kernel

theorem test_write_fault_after_the_write_pass :
    ((after (.writeFaultLine ⟨0, false⟩) (transfer (opOf .writeSectors 2 .idleFlush) { Attempt.none with pulses := 3 })).work.drive
      0).vol = .mounted := by decide +kernel

theorem test_write_fault_in_the_verify_pass :
    ((after (.writeFaultLine ⟨0, true⟩) (transfer (opOf .labelWrite 0 .labelWrite) { Attempt.none with pulses := 1 })).work.drive
      0).vol = .mounted ∧
    ((after (.writeFaultLine ⟨0, true⟩) (transfer (opOf .writeSectors 2 .idleFlush) { Attempt.none with pulses := 1 })).work.drive
      0).vol = .writeFaulted := by decide +kernel

/-- A packed frame on a TEXT line counts WRONG_FORM, and none while the part is RESTARTING. -/
theorem test_other_form_while_restarting :
    let s := answering fun x => { x with rxChars := statusPacked, rxPacked := true, judgement := .text }
    let r : State := { s with work := { s.work with restarting := true } }
    ((after (.upstreamCharacter 0 (char 0xDC)) s).work.line 0).counts.wrongForm = 1 ∧
      ((after (.upstreamCharacter 0 (char 0xDC)) r).work.line 0).counts.wrongForm = 0 ∧
      ((after (.upstreamCharacter 0 (char 0xDC)) r).work.line 0).rx = .hunting := by decide +kernel

/-- A WRITE whose tail is placed keeps its buffer for a new block on the same track-side, and lets it go for another. -/
theorem test_write_keeps_its_buffer_on_one_track_side :
    ∀ x ∈ [(63, Place.holding 0), (92, Place.run)],
      let s := sector2 (staging ⟨250, [⟨62, 1⟩, ⟨x.1, 1⟩], false⟩) (.dirty (sector 9))
      let s := entry0 s (active (.write 0 250 (List.replicate 10 7)) (.holding 0) (.write false (some x.1)))
      ((s.work.advance 0).bind fun w => (w.entry 0).bind (·.active)).map (·.place) = some x.2 := by decide +kernel

theorem test_thirteenth_frame_waits :
    let x := ((sending 12).withReply 0 ⟨some .status, 5, .busy, .none⟩).work.line 0
    x.tx.length = 12 ∧ x.txWait.length = 1 ∧ (x.pop.tx.length = 12 ∧ x.pop.txWait = []) := by decide +kernel

theorem test_poll_sends_its_characters :
    ((after (.pollBegin 0) (polling .ready 0)).work.line 0).pollOut = [⟨1, true⟩, ⟨0x05, false⟩] := by decide +kernel

/-- A WRITE whose CANCEL is noted while its tail's READ_TRACK transfers, and of whose track-side no sector can be read, makes
its check-out LOST and is replied MEDIA_ERROR. -/
theorem test_cancelled_tail_read_loses_the_check_out :
    let a : Attempt := { Attempt.none with made := 1, bad := allSectors, final := true }
    let s := transfer { opOf .readTrack 2 (.request 0) with buffer := some 0 } a
    let s := handle0 s { editor with staging := some ⟨10, [⟨62, 1⟩], false⟩ }
    let s := buffer0 s fun _ => { Buffer.powerOn with state := .filling, key := some ⟨0, 2, 0⟩ }
    let s := entry0 s { active (.write 0 10 [7]) (.filling 0) (.write false none) with
      active := some ⟨.ordinary, true, .filling 0, .write false none⟩ }
    let t := after (.readTrackAttemptEnd 0 false (List.replicate 15 .crcError)) s
    (t.work.handle 0).map (·.state) = some (.defunct .lost) ∧ lastCode t 0 = some .mediaError := by decide +kernel

/-- A READ whose eviction flush of buffer 0 makes its final attempt at the sector of the STAGED block 62. -/
def evictingRead : State :=
  let s := buffer0 (failedSector [(60, .filed), (61, .filed), (62, .staged)]) fun bu => { bu with pending := [] }
  let s := drive0 s fun dr => { dr with
    mech := .transferring, ops := [{ opOf .writeSectors 2 (.request 0) with buffer := some 0, transferring := true }],
    attempt := { Attempt.none with made := 1, bad := [2], final := true, taken := [(2, sector 9)] } }
  let s := { s with work := { s.work.setHandle 1 (some reader) with owner := some 0 } }
  entry0 s (active (.read 1 none 10) .evicting (.read 0 [⟨90, 0, 10⟩] []))

/-- An eviction flush that leaves a sector to relocate keeps its READ waiting until the relocation has placed it; the READ then
takes a FREE buffer. -/
theorem test_eviction_waits_for_its_relocations :
    let s := after (.writeSectorsAttemptEnd 0 false (List.replicate 15 .notFound)) evictingRead
    let t := after (.relocation 0) s
    let place := fun u : State => ((u.work.entry 0).bind (·.active)).map (·.place)
    (place s, (s.work.buffer 0).pending, (s.work.buffer 0).state) = (some (.draining 0), [2], .flushing) ∧
      (place t, (t.work.buffer 0).pending, (t.work.buffer 0).state) = (some (.filling 1), [], .ready) := by decide +kernel

/-- A READ answered from the buffers moves its buffer to the most recent end of the order of use. -/
theorem test_read_moves_its_buffer : (after (.read env 1 2 (some 255)) buffered).work.lru.getLast? = some 0 := by
  decide +kernel

/-- Disabling a drive sends the request whose eviction flush stood on it to a buffer afresh. -/
theorem test_disable_sends_the_evictor_on :
    let s := after (.setDriveEnable env 0 0) foreignFlush
    (s.work.drive 0).enabled = false ∧ ((s.work.entry 0).bind (·.active)).map (·.place) = some (.filling 0) := by
  decide +kernel

/-- A relocation lost under an ACTIVE FILE leaves a label write where the label list has room, and none where it is full. -/
theorem test_lost_under_file_label_write :
    ∀ x ∈ [([], 1), (List.range 16, 0)], let s := after (.relocation 0) (lostUnderFile x.1)
      (s.work.drive 0).queued.countP (·.kind == .labelWrite) = x.2 ∧ lastCode s 0 = some .mediaError := by
  decide +kernel

end Sys2Proof.Tests
end

section
/-! PROOFS. The handles and check-outs of chapter 3: the common checks of a request that names a handle (R49, R73), the READ that is
answered at intake (R54, R55, R126, R130), and the refusals of a WRITE and of a FILE (R57, R61). -/

namespace Sys2Proof.Proofs.Handles

open Sys2Proof Sys2Proof.Machine

/-! ### A command of a desk that is served -/

/-- R106: a served command reaches the checks of its own request. -/
theorem exec_served (c : Instr) (f : Frame) (k : ReqKind) (s : State) (hf : frameOf c = some f) (hk : kindOf f.req = some k)
    (hc : f.req ≠ .cancel) (hs : Served s f.env.desk k) :
    exec c s = s.with (serve s.cfg (s.work.setOutstanding f) f.env f.req) := by
  rw [exec_frame c f s hf, handFrame_served f k s hk hc hs]

theorem exec_read_served {env : Envelope} {n count : Nat} {offset : Option Nat} {s : State}
    (hs : Served s env.desk .read) : exec (.read env n count offset) s =
      .next { s with work := (s.work.setOutstanding ⟨env, .read n count offset⟩).read env n count offset } :=
  exec_served _ ⟨env, .read n count offset⟩ .read s rfl rfl Request.noConfusion hs

theorem exec_write_served {env : Envelope} {n offset : Nat} {data : Chars} {s : State}
    (hs : Served s env.desk .write) : exec (.write env n offset data) s =
      .next { s with work := (s.work.setOutstanding ⟨env, .write n offset data⟩).write env n offset data } :=
  exec_served _ ⟨env, .write n offset data⟩ .write s rfl rfl Request.noConfusion hs

theorem exec_file_served {env : Envelope} {n : Nat} {s : State} (hs : Served s env.desk .file) :
    exec (.file env n) s = .next { s with work := (s.work.setOutstanding ⟨env, .file n⟩).file env n } :=
  exec_served _ ⟨env, .file n⟩ .file s rfl rfl Request.noConfusion hs

theorem exec_close_served {env : Envelope} {n : Nat} {s : State} (hs : Served s env.desk .close) :
    exec (.close env n) s = .next { s with work := (s.work.setOutstanding ⟨env, .close n⟩).close env n } :=
  exec_served _ ⟨env, .close n⟩ .close s rfl rfl Request.noConfusion hs

theorem exec_discard_served {env : Envelope} {n : Nat} {s : State} (hs : Served s env.desk .discard) :
    exec (.discard env n) s =
      .next { s with work := settle s.cfg ((s.work.setOutstanding ⟨env, .discard n⟩).discard env n) } :=
  exec_served _ ⟨env, .discard n⟩ .discard s rfl rfl Request.noConfusion hs

/-! ### The fields of a READ and of a WRITE -/

/-- R49: the fields of a READ but its handle are in range. -/
def readFieldsOk (env : Envelope) (count : Nat) (offset : Option Nat) : Bool :=
  1 ≤ count && count ≤ formLimit env.form && offset.all offsetOk

/-- R49: the fields of a WRITE but its handle are in range. -/
def writeFieldsOk (env : Envelope) (offset : Nat) (data : Chars) : Bool :=
  1 ≤ data.length && data.length ≤ formLimit env.form && offsetOk offset

@[simp] theorem offsetOk_iff (offset : Nat) : offsetOk offset = true ↔ offset ≤ 32768 :=
  decide_eq_true_iff

theorem readFieldsOk_iff (env : Envelope) (count : Nat) (offset : Option Nat) : readFieldsOk env count offset = true ↔
    1 ≤ count ∧ count ≤ formLimit env.form ∧ ∀ o ∈ offset, o ≤ 32768 := by
  cases offset <;> simp [readFieldsOk, and_assoc]

theorem writeFieldsOk_iff (env : Envelope) (offset : Nat) (data : Chars) : writeFieldsOk env offset data = true ↔
    1 ≤ data.length ∧ data.length ≤ formLimit env.form ∧ offset ≤ 32768 := by
  simp [writeFieldsOk, and_assoc]

theorem readFieldsOk_false {env : Envelope} {count : Nat} {offset : Option Nat}
    (h : count = 0 ∨ formLimit env.form < count ∨ ∃ o ∈ offset, 32768 < o) : readFieldsOk env count offset = false := by
  rw [← Bool.not_eq_true, readFieldsOk_iff]
  rintro ⟨h1, h2, h3⟩
  rcases h with h | h | ⟨o, ho, h⟩
  · omega
  · omega
  · exact absurd (h3 o ho) (by omega)

theorem writeFieldsOk_false {env : Envelope} {offset : Nat} {data : Chars}
    (h : data = [] ∨ formLimit env.form < data.length ∨ 32768 < offset) : writeFieldsOk env offset data = false := by
  rw [← Bool.not_eq_true, writeFieldsOk_iff]
  rintro ⟨h1, h2, h3⟩
  rcases h with rfl | h | h
  · exact absurd h1 (by simp)
  · omega
  · omega

/-! ### The common checks -/

/-- R49: fields or a handle number out of range are refused before the handle is looked at. -/
theorem withHandle_badRequest (w : Work) (env : Envelope) (k : ReqKind) (n : Nat) (ok : Bool) (go : HandleIx → Handle → Work)
    (h : ok = false ∨ n = 0 ∨ 48 < n) : w.withHandle env k n ok go = w.refuse env k .badRequest := by
  rcases h with rfl | hn
  · rfl
  · cases ok <;> simp [Work.withHandle, handleOf_bad n hn]

/-- R49: the command is a request of kind `k` that names handle number `n`, and whose other fields pass if `ok`: served, it is
what the common checks make of it on the work that it was taken in, and then what `follow` says comes at once. -/
def NamesHandle (c : Instr) (env : Envelope) (k : ReqKind) (n : Nat) (ok : Bool) (follow : Cfg → Work → Work) : Prop :=
  k ≠ .list ∧ ∃ req, ∀ s, Served s env.desk k → ∃ go,
    exec c s = .next { s with work := follow s.cfg ((s.work.setOutstanding ⟨env, req⟩).withHandle env k n ok go) }

/-- Nothing comes at once after the answer. -/
def nothingFollows : Cfg → Work → Work := fun _ w => w

theorem read_namesHandle (env : Envelope) (n count : Nat) (offset : Option Nat) :
    NamesHandle (.read env n count offset) env .read n (readFieldsOk env count offset) nothingFollows :=
  ⟨ReqKind.noConfusion, _, fun _ hs => ⟨_, exec_read_served hs⟩⟩

theorem write_namesHandle (env : Envelope) (n offset : Nat) (data : Chars) :
    NamesHandle (.write env n offset data) env .write n (writeFieldsOk env offset data) nothingFollows :=
  ⟨ReqKind.noConfusion, _, fun _ hs => ⟨_, exec_write_served hs⟩⟩

theorem read_namesHandle_of_fields {env : Envelope} {n count : Nat} {offset : Option Nat} (h1 : 1 ≤ count)
    (h2 : count ≤ formLimit env.form) (h3 : ∀ o ∈ offset, o ≤ 32768) :
    NamesHandle (.read env n count offset) env .read n true nothingFollows :=
  (readFieldsOk_iff env count offset).mpr ⟨h1, h2, h3⟩ ▸ read_namesHandle env n count offset

theorem write_namesHandle_of_fields {env : Envelope} {n offset : Nat} {data : Chars} (h1 : 1 ≤ data.length)
    (h2 : data.length ≤ formLimit env.form) (h3 : offset ≤ 32768) :
    NamesHandle (.write env n offset data) env .write n true nothingFollows :=
  (writeFieldsOk_iff env offset data).mpr ⟨h1, h2, h3⟩ ▸ write_namesHandle env n offset data

theorem file_namesHandle (env : Envelope) (n : Nat) : NamesHandle (.file env n) env .file n true nothingFollows :=
  ⟨ReqKind.noConfusion, _, fun _ hs => ⟨_, exec_file_served hs⟩⟩

theorem close_namesHandle (env : Envelope) (n : Nat) : NamesHandle (.close env n) env .close n true nothingFollows :=
  ⟨ReqKind.noConfusion, _, fun _ hs => ⟨_, exec_close_served hs⟩⟩

theorem discard_namesHandle (env : Envelope) (n : Nat) : NamesHandle (.discard env n) env .discard n true settle :=
  ⟨ReqKind.noConfusion, _, fun _ hs => ⟨_, exec_discard_served hs⟩⟩

section
variable {c : Instr} {env : Envelope} {k : ReqKind} {n : Nat} {ok : Bool} {follow : Cfg → Work → Work} {s : State}

/-- R49: fields or a handle number out of range: BAD_REQUEST. -/
theorem NamesHandle.badRequest (hc : NamesHandle c env k n ok follow) (hs : Served s env.desk k)
    (hbad : ok = false ∨ n = 0 ∨ 48 < n) :
    exec c s = .next { s with work := follow s.cfg (s.work.withReply env.desk (refusal k env .badRequest)) } := by
  obtain ⟨hk, req, hserved⟩ := hc
  obtain ⟨go, he⟩ := hserved s hs
  obtain ⟨_, hp, ho, _⟩ := hs
  rw [he, withHandle_badRequest _ _ _ _ _ _ hbad, refuse_taken _ _ _ _ _ ho hp hk]

/-- R49: a handle that is not in use or is another desk's: BAD_HANDLE. -/
theorem NamesHandle.badHandle (hc : NamesHandle c env k n true follow) (hs : Served s env.desk k)
    (hforeign : ∃ h : HandleIx, h.val + 1 = n ∧ (s.work.handle h).all (·.desk != env.desk) = true) :
    exec c s = .next { s with work := follow s.cfg (s.work.withReply env.desk (refusal k env .badHandle)) } := by
  obtain ⟨hk, req, hserved⟩ := hc
  obtain ⟨go, he⟩ := hserved s hs
  obtain ⟨_, hp, ho, _⟩ := hs
  obtain ⟨h, rfl, hh⟩ := hforeign
  rw [he, withHandle_foreign (s.work.setOutstanding ⟨env, req⟩) env k h go hh, refuse_taken _ _ _ _ _ ho hp hk]

/-- R73: the one answer of a DEFUNCT handle, with which it is freed. -/
theorem NamesHandle.defunct {h : HandleIx} {hd : Handle} {cause : Cause}
    (hc : NamesHandle c env k (h.val + 1) true follow) (hs : Served s env.desk k) (hh : s.work.handle h = some hd)
    (hdesk : hd.desk = env.desk) (hst : hd.state = .defunct cause) :
    exec c s = .next { s with work := follow s.cfg ((s.work.setHandle h none).withReply env.desk
      (if k = .close then okReply k env .none else refusal k env (causeResult cause))) } := by
  obtain ⟨hk, req, hserved⟩ := hc
  obtain ⟨go, he⟩ := hserved s hs
  obtain ⟨_, hp, ho, _⟩ := hs
  have freed : (s.work.setOutstanding ⟨env, req⟩).setHandle h none = (s.work.setHandle h none).setOutstanding ⟨env, req⟩ :=
    setHandle_updDesk ..
  rw [he, withHandle_defunct (s.work.setOutstanding ⟨env, req⟩) env k h hd cause go hh hdesk hst, freed]
  split
  · rw [replyOk_taken (s.work.setHandle h none) env req k .none ho hp]
  · rw [refuse_taken (s.work.setHandle h none) env req k (causeResult cause) ho hp hk]

end

/-! ### A handle is checked -/

/-- Settles O32: each of the five commands is decided by the common checks, whose three answers are one rule each. -/
theorem handleIsChecked : Obligations.HandleIsChecked := by
  refine ⟨fun env n s => ⟨fun hs => ?file, fun hs => ?close, fun hs => ?discard, fun count offset hs => ?read,
    fun offset data hs => ?write⟩, fun env h hd c s hh hdesk hst => ?defunct⟩
  case file =>
    have hc := file_namesHandle env n
    exact ⟨fun hbad => hc.badRequest hs (.inr hbad), hc.badHandle hs⟩
  case close =>
    have hc := close_namesHandle env n
    exact ⟨fun hbad => hc.badRequest hs (.inr hbad), hc.badHandle hs⟩
  case discard =>
    have hc := discard_namesHandle env n
    exact ⟨fun hbad => hc.badRequest hs (.inr hbad), hc.badHandle hs⟩
  case read =>
    have hc := read_namesHandle env n count offset
    exact ⟨fun h1 h2 => ⟨fun hbad => hc.badRequest hs (.inr hbad),
        fun hforeign h3 => (read_namesHandle_of_fields h1 h2 h3).badHandle hs hforeign⟩,
      fun hbad => hc.badRequest hs (.inl (readFieldsOk_false hbad))⟩
  case write =>
    have hc := write_namesHandle env n offset data
    exact ⟨fun h1 h2 => ⟨fun hbad => hc.badRequest hs (.inr hbad),
        fun hforeign h3 => (write_namesHandle_of_fields h1 h2 h3).badHandle hs hforeign⟩,
      fun hbad => hc.badRequest hs (.inl (writeFieldsOk_false hbad))⟩
  case defunct =>
    refine ⟨fun hs => ?_, fun hs => ?_, fun hs => ?_, fun count offset hs h1 h2 h3 => ?_,
      fun offset data hs h1 h2 h3 => ?_⟩
    · exact (close_namesHandle env _).defunct hs hh hdesk hst
    · exact (file_namesHandle env _).defunct hs hh hdesk hst
    · exact (discard_namesHandle env _).defunct hs hh hdesk hst
    · exact (read_namesHandle_of_fields h1 h2 h3).defunct hs hh hdesk hst
    · exact (write_namesHandle_of_fields h1 h2 h3).defunct hs hh hdesk hst

/-! ### A READ answered at intake -/

/-- R54: a READ at or past the version's length has no bytes to give. -/
theorem read_past_end {w : Work} {env : Envelope} {h : HandleIx} {hd : Handle} {count : Nat} {offset : Option Nat}
    (hh : w.handle h = some hd) (hdesk : hd.desk = env.desk) (hs : ∀ c, hd.state ≠ .defunct c)
    (hok : readFieldsOk env count offset = true) (hend : (w.versionOf hd).1 ≤ offset.getD hd.readPos) :
    w.read env (h.val + 1) count offset = w.readAnswer env h (offset.getD hd.readPos) [] := by
  unfold readFieldsOk at hok
  rw [Work.read, hok, withHandle_own w env .read h hd _ hh hdesk hs]
  exact if_pos hend

/-- R130: a READ inside the version whose needed sectors are all VALID is answered from the buffers. -/
theorem read_buffered {w : Work} {env : Envelope} {h : HandleIx} {hd : Handle} {count : Nat} {offset : Option Nat}
    {pieces : List Piece} {bytes : Chars} (hh : w.handle h = some hd) (hdesk : hd.desk = env.desk)
    (hs : ∀ c, hd.state ≠ .defunct c) (hok : readFieldsOk env count offset = true)
    (hin : offset.getD hd.readPos < (w.versionOf hd).1)
    (hpieces : pieces = readPieces (w.versionOf hd).2 (w.versionOf hd).1 (offset.getD hd.readPos) count)
    (hvalid : w.validPieces hd.drive pieces = some bytes) : w.read env (h.val + 1) count offset =
      (w.touchPieces hd.drive pieces).readAnswer env h (offset.getD hd.readPos) bytes := by
  unfold readFieldsOk at hok
  subst hpieces
  rw [Work.read, hok, withHandle_own w env .read h hd _ hh hdesk hs]
  dsimp only
  rw [if_neg (Nat.not_le.mpr hin), hvalid]

/-- R55: an answer at intake, on the work that the READ was taken in, moves the read position and leaves its reply. -/
theorem readAnswer_taken {w : Work} {env : Envelope} {h : HandleIx} {hd : Handle} (req : Request) (offset : Nat)
    (data : Chars) (hh : w.handle h = some hd) (ho : (w.desk env.desk).outstanding = none)
    (hp : (w.desk env.desk).presence = .present) : (w.setOutstanding ⟨env, req⟩).readAnswer env h offset data =
      (w.setHandle h (some { hd with readPos := offset + data.length })).withReply env.desk
        (okReply .read env (.read offset data)) := by
  have moved : (w.setOutstanding ⟨env, req⟩).updHandle h (fun x => { x with readPos := offset + data.length }) =
      (w.setHandle h (some { hd with readPos := offset + data.length })).setOutstanding ⟨env, req⟩ := by
    have hh' : (w.setOutstanding ⟨env, req⟩).handle h = some hd := hh
    rw [Work.updHandle, hh']
    exact setHandle_updDesk ..
  rw [Work.readAnswer, moved]
  exact replyOk_taken (w.setHandle h _) env req .read _ ho hp

/-- R130: taking a request changes no sector that a READ needs. -/
theorem validPieces_setOutstanding (w : Work) (f : Frame) (d : DriveId) :
    ∀ ps, (w.setOutstanding f).validPieces d ps = w.validPieces d ps
  | [] => rfl
  | p :: ps => by
    have hp : (w.setOutstanding f).validPiece d p = w.validPiece d p := rfl
    rw [Work.validPieces, Work.validPieces, hp, validPieces_setOutstanding w f d ps]

/-- R126, log 62: the order of use after the buffers of some pieces, in byte order, have moved to its most recent end. -/
def orderAfter (w : Work) (d : DriveId) (ps : List Piece) (order : List BufId) : List BufId :=
  ps.foldl (fun order p => match w.bufferOf (keyOf d (w.sides d) p.block) with
    | some b => order.erase b ++ [b]
    | none => order) order

theorem orderAfter_cons_of_buffer {w : Work} {d : DriveId} {p : Piece} {b : BufId} (ps : List Piece) (order : List BufId)
    (hb : w.bufferOf (keyOf d (w.sides d) p.block) = some b) :
    orderAfter w d (p :: ps) order = orderAfter w d ps (order.erase b ++ [b]) := by
  simp only [orderAfter, List.foldl_cons, hb]

theorem orderAfter_cons_of_none {w : Work} {d : DriveId} {p : Piece} (ps : List Piece) (order : List BufId)
    (hb : w.bufferOf (keyOf d (w.sides d) p.block) = none) : orderAfter w d (p :: ps) order = orderAfter w d ps order := by
  simp only [orderAfter, List.foldl_cons, hb]

/-- R126: the buffers that gave bytes move in the order of use, and nothing else changes. -/
theorem touchPieces_eq (w : Work) (d : DriveId) (ps : List Piece) :
    w.touchPieces d ps = { w with lru := orderAfter w d ps w.lru } := by
  induction ps generalizing w with
  | nil => rfl
  | cons p ps ih =>
    cases hb : w.bufferOf (keyOf d (w.sides d) p.block) with
    | none =>
      have first : w.touchPieces d (p :: ps) = w.touchPieces d ps := by
        simp only [Work.touchPieces, Work.each, List.foldl_cons, hb]
      rw [first, ih, orderAfter_cons_of_none ps w.lru hb]
    | some b =>
      have first : w.touchPieces d (p :: ps) = (w.touchRecent b).touchPieces d ps := by
        simp only [Work.touchPieces, Work.each, List.foldl_cons, hb]
      rw [first, ih, orderAfter_cons_of_buffer ps w.lru hb]
      rfl

/-- R55, R126: an answer from the buffers, on the work that the READ was taken in, moves them as well. -/
theorem readAnswer_touched {w : Work} {env : Envelope} {h : HandleIx} {hd : Handle} (req : Request) (d : DriveId)
    (ps : List Piece) (offset : Nat) (data : Chars) (hh : w.handle h = some hd)
    (ho : (w.desk env.desk).outstanding = none) (hp : (w.desk env.desk).presence = .present) :
    ((w.setOutstanding ⟨env, req⟩).touchPieces d ps).readAnswer env h offset data =
      ({ w with lru := orderAfter w d ps w.lru }.setHandle h
        (some { hd with readPos := offset + data.length })).withReply env.desk (okReply .read env (.read offset data)) := by
  rw [touchPieces_eq]
  exact readAnswer_taken (w := { w with lru := orderAfter w d ps w.lru }) req offset data hh ho hp

/-- Settles O33: the READ comes down to its answer at intake, on the work with the buffers moved where they gave bytes. -/
theorem readAnsweredAtIntake : Obligations.ReadAnsweredAtIntake := by
  refine ⟨fun env h hd count offset s hs hh hdesk hst h1 h2 h3 hend => ?past,
    fun env h hd count offset bytes s hs hh hdesk hst h1 h2 h3 hin hvalid => ?buffered⟩
  case past =>
    have hok := (readFieldsOk_iff env count offset).mpr ⟨h1, h2, h3⟩
    rw [exec_read_served hs, read_past_end (w := s.work.setOutstanding _) hh hdesk hst hok hend]
    obtain ⟨_, hp, ho, _⟩ := hs
    rw [readAnswer_taken _ _ _ hh ho hp]
    rfl
  case buffered =>
    have hok := (readFieldsOk_iff env count offset).mpr ⟨h1, h2, h3⟩
    rw [exec_read_served hs, read_buffered (w := s.work.setOutstanding _) hh hdesk hst hok hin rfl
      ((validPieces_setOutstanding ..).trans hvalid)]
    obtain ⟨_, hp, ho, _⟩ := hs
    rw [readAnswer_touched _ _ _ _ _ hh ho hp]
    refine ⟨_, rfl, rfl, ?_, fun i hi => ?_, rfl, rfl, rfl, rfl, rfl, rfl⟩
    · exact (handle_setHandle ..).trans (if_pos rfl)
    · exact (handle_setHandle ..).trans (if_neg (Ne.symm hi))

/-! ### The refusals of a WRITE and of a FILE -/

/-- R57: a WRITE that its handle does not accept. -/
theorem write_refused {env : Envelope} {h : HandleIx} {hd : Handle} {offset : Nat} {data : Chars} {code : ResultCode}
    {s : State} (hs : Served s env.desk .write) (hh : s.work.handle h = some hd) (hdesk : hd.desk = env.desk)
    (hst : ∀ c, hd.state ≠ .defunct c) (hok : writeFieldsOk env offset data = true)
    (hcode : writeRefusal hd offset data.length = some code) :
    exec (.write env (h.val + 1) offset data) s = .next (s.withReply env.desk (refusal .write env code)) := by
  unfold writeFieldsOk at hok
  rw [exec_write_served hs, Work.write, hok, withHandle_own (s.work.setOutstanding _) env .write h hd _ hh hdesk hst, hcode]
  obtain ⟨_, hp, ho, _⟩ := hs
  exact congrArg (fun w => Host.Outcome.next { s with work := w })
    (refuse_taken s.work env _ .write code ho hp ReqKind.noConfusion)

/-- The first check of a list decides, or those after it do. -/
theorem firstRefusal_cons (b : Bool) (code : ResultCode) (rest : List (Bool × ResultCode)) :
    firstRefusal ((b, code) :: rest) = if b = true then some code else firstRefusal rest := by
  cases b <;> rfl

/-- R61: the refusals of a FILE at intake. -/
def fileRefusal (hd : Handle) : Option ResultCode :=
  firstRefusal [(hd.mode == .read, .wrongMode), (hd.state == .frozen, .frozen)]

/-- R61: a FILE that its handle does not accept. -/
theorem file_refused {env : Envelope} {h : HandleIx} {hd : Handle} {code : ResultCode} {s : State}
    (hs : Served s env.desk .file) (hh : s.work.handle h = some hd) (hdesk : hd.desk = env.desk)
    (hst : ∀ c, hd.state ≠ .defunct c) (hcode : fileRefusal hd = some code) :
    exec (.file env (h.val + 1)) s = .next (s.withReply env.desk (refusal .file env code)) := by
  unfold fileRefusal at hcode
  rw [exec_file_served hs, Work.file, withHandle_own (s.work.setOutstanding _) env .file h hd _ hh hdesk hst, hcode]
  obtain ⟨_, hp, ho, _⟩ := hs
  exact congrArg (fun w => Host.Outcome.next { s with work := w })
    (refuse_taken s.work env _ .file code ho hp ReqKind.noConfusion)

section
variable {hd : Handle} (offset count : Nat)

theorem writeRefusal_wrongMode (hm : hd.mode = .read) : writeRefusal hd offset count = some .wrongMode := by
  simp [writeRefusal, firstRefusal_cons, hm]

theorem writeRefusal_frozen (hm : hd.mode = .edit) (hst : hd.state = .frozen) :
    writeRefusal hd offset count = some .frozen := by
  simp [writeRefusal, firstRefusal_cons, hm, hst]

theorem writeRefusal_offset {st : Staging} (hm : hd.mode = .edit) (hst : hd.state = .live) (hs : hd.staging = some st)
    (ho : offset ≠ st.length) : writeRefusal hd offset count = some .offset := by
  simp [writeRefusal, firstRefusal_cons, hm, hst, hs, ho]

theorem writeRefusal_tooLong {st : Staging} (hm : hd.mode = .edit) (hst : hd.state = .live) (hs : hd.staging = some st)
    (ho : offset = st.length) (hlong : 32768 < offset + count) : writeRefusal hd offset count = some .tooLong := by
  have hlong' : Config.maxStory < st.length + count := ho ▸ hlong
  simp [writeRefusal, firstRefusal_cons, hm, hst, hs, ho, hlong']

theorem fileRefusal_wrongMode (hm : hd.mode = .read) : fileRefusal hd = some .wrongMode := by
  simp [fileRefusal, firstRefusal_cons, hm]

theorem fileRefusal_frozen (hm : hd.mode = .edit) (hst : hd.state = .frozen) : fileRefusal hd = some .frozen := by
  simp [fileRefusal, firstRefusal_cons, hm, hst]

end

/-- Settles O35: for each reason, the refusals before it do not apply. -/
theorem writeAndFileRefusals : Obligations.WriteAndFileRefusals := by
  intro env h hd offset data s hh hdesk hst h1 h2 h3
  have hok := (writeFieldsOk_iff env offset data).mpr ⟨h1, h2, h3⟩
  refine ⟨fun hs => ⟨fun hm => ?_, fun hm hf => ?_, fun st hm hl hstaging => ⟨fun ho => ?_, fun ho hlong => ?_⟩⟩,
    fun hs => ⟨fun hm => ?_, fun hm hf => ?_⟩⟩
  · exact write_refused hs hh hdesk hst hok (writeRefusal_wrongMode _ _ hm)
  · exact write_refused hs hh hdesk hst hok (writeRefusal_frozen _ _ hm hf)
  · exact write_refused hs hh hdesk hst hok (writeRefusal_offset _ _ hm hl hstaging ho)
  · exact write_refused hs hh hdesk hst hok (writeRefusal_tooLong _ _ hm hl hstaging ho hlong)
  · exact file_refused hs hh hdesk hst (fileRefusal_wrongMode hm)
  · exact file_refused hs hh hdesk hst (fileRefusal_frozen hm hf)

end Sys2Proof.Proofs.Handles
end
